-- ==== Sys2Proof/Word.lean ====
section
/-! DEFINITION. The two word sizes of the CPU (00_scope.md rules R8, R10): a byte is 8 bits, a word is 16 bits. -/

namespace Sys2Proof

/-- A byte (R10). -/
abbrev Byte := BitVec 8

/-- A word (R10): a 16-bit address or program counter. -/
abbrev Word := BitVec 16

end Sys2Proof
end

