-- ==== Sys2Proof/Syntax.lean ====
section
/-! DEFINITION. The instruction syntax: ONE constructor for each row of spec/opcode_table.json (30_encoding.md §7).
An operand field is exactly as wide as the bits the encoding gives it: `n` is the operand byte of format F2, `w` the
16-bit operand `hh:ll` of format F3 (rules R300, R310 to R313), so no constructor has an ignored or unencodable field (R341). -/

namespace Sys2Proof

/-- The 151 official opcodes (R2, R338). A name is the mnemonic and the addressing mode in the spec's short form
(`imp` and `rel` rows, which are the only rows of their mnemonic, carry no suffix; `jsr` has only the `abs` row). -/
inductive Instr where
  -- 40_load_store_transfer.md
  | ldaIzx (n : Byte)
  | ldaZp (n : Byte)
  | ldaImm (n : Byte)
  | ldaAbs (w : Word)
  | ldaIzy (n : Byte)
  | ldaZpx (n : Byte)
  | ldaAby (w : Word)
  | ldaAbx (w : Word)
  | ldxImm (n : Byte)
  | ldxZp (n : Byte)
  | ldxAbs (w : Word)
  | ldxZpy (n : Byte)
  | ldxAby (w : Word)
  | ldyImm (n : Byte)
  | ldyZp (n : Byte)
  | ldyAbs (w : Word)
  | ldyZpx (n : Byte)
  | ldyAbx (w : Word)
  | staIzx (n : Byte)
  | staZp (n : Byte)
  | staAbs (w : Word)
  | staIzy (n : Byte)
  | staZpx (n : Byte)
  | staAby (w : Word)
  | staAbx (w : Word)
  | stxZp (n : Byte)
  | stxAbs (w : Word)
  | stxZpy (n : Byte)
  | styZp (n : Byte)
  | styAbs (w : Word)
  | styZpx (n : Byte)
  | tax
  | tay
  | txa
  | tya
  | tsx
  | txs
  -- 41_stack.md
  | pha
  | php
  | pla
  | plp
  -- 42_arithmetic.md
  | adcIzx (n : Byte)
  | adcZp (n : Byte)
  | adcImm (n : Byte)
  | adcAbs (w : Word)
  | adcIzy (n : Byte)
  | adcZpx (n : Byte)
  | adcAby (w : Word)
  | adcAbx (w : Word)
  | sbcIzx (n : Byte)
  | sbcZp (n : Byte)
  | sbcImm (n : Byte)
  | sbcAbs (w : Word)
  | sbcIzy (n : Byte)
  | sbcZpx (n : Byte)
  | sbcAby (w : Word)
  | sbcAbx (w : Word)
  | cmpIzx (n : Byte)
  | cmpZp (n : Byte)
  | cmpImm (n : Byte)
  | cmpAbs (w : Word)
  | cmpIzy (n : Byte)
  | cmpZpx (n : Byte)
  | cmpAby (w : Word)
  | cmpAbx (w : Word)
  | cpxImm (n : Byte)
  | cpxZp (n : Byte)
  | cpxAbs (w : Word)
  | cpyImm (n : Byte)
  | cpyZp (n : Byte)
  | cpyAbs (w : Word)
  | incZp (n : Byte)
  | incAbs (w : Word)
  | incZpx (n : Byte)
  | incAbx (w : Word)
  | decZp (n : Byte)
  | decAbs (w : Word)
  | decZpx (n : Byte)
  | decAbx (w : Word)
  | inx
  | iny
  | dex
  | dey
  -- 43_logic_shift.md
  | andIzx (n : Byte)
  | andZp (n : Byte)
  | andImm (n : Byte)
  | andAbs (w : Word)
  | andIzy (n : Byte)
  | andZpx (n : Byte)
  | andAby (w : Word)
  | andAbx (w : Word)
  | oraIzx (n : Byte)
  | oraZp (n : Byte)
  | oraImm (n : Byte)
  | oraAbs (w : Word)
  | oraIzy (n : Byte)
  | oraZpx (n : Byte)
  | oraAby (w : Word)
  | oraAbx (w : Word)
  | eorIzx (n : Byte)
  | eorZp (n : Byte)
  | eorImm (n : Byte)
  | eorAbs (w : Word)
  | eorIzy (n : Byte)
  | eorZpx (n : Byte)
  | eorAby (w : Word)
  | eorAbx (w : Word)
  | bitZp (n : Byte)
  | bitAbs (w : Word)
  | aslZp (n : Byte)
  | aslAcc
  | aslAbs (w : Word)
  | aslZpx (n : Byte)
  | aslAbx (w : Word)
  | lsrZp (n : Byte)
  | lsrAcc
  | lsrAbs (w : Word)
  | lsrZpx (n : Byte)
  | lsrAbx (w : Word)
  | rolZp (n : Byte)
  | rolAcc
  | rolAbs (w : Word)
  | rolZpx (n : Byte)
  | rolAbx (w : Word)
  | rorZp (n : Byte)
  | rorAcc
  | rorAbs (w : Word)
  | rorZpx (n : Byte)
  | rorAbx (w : Word)
  -- 44_control.md
  | bcc (n : Byte)
  | bcs (n : Byte)
  | beq (n : Byte)
  | bne (n : Byte)
  | bmi (n : Byte)
  | bpl (n : Byte)
  | bvc (n : Byte)
  | bvs (n : Byte)
  | jmpAbs (w : Word)
  | jmpInd (w : Word)
  | jsr (w : Word)
  | rts
  | brk
  | rti
  -- 45_flags_misc.md
  | clc
  | sec
  | cli
  | sei
  | cld
  | sed
  | clv
  | nop
  deriving DecidableEq, Repr

end Sys2Proof
end

