-- ==== Sys2Proof/WellFormed.lean ====
section
/-! DEFINITION. Well-formedness. Every operand field of `Instr` is exactly as wide as its encoding and no instruction has an
ignored or reserved field (30_encoding.md R341), so every term of `Instr` is an instruction. What the spec asks to be
refused about an instruction before it is encoded is a branch target out of range (R351). -/

namespace Sys2Proof

/-- The 13 addressing modes (30_encoding.md §3, rules R320 to R332). -/
inductive Mode where
  | imp | acc | imm | zp | zpx | zpy | abs | abx | aby | ind | izx | izy | rel
  deriving DecidableEq, Repr

/-- An instruction's length in bytes, a function of its mode (R300, R302). -/
def Mode.length (m : Mode) : Nat :=
  match m with
  | .imp | .acc => 1
  | .imm | .zp | .zpx | .zpy | .izx | .izy | .rel => 2
  | .abs | .abx | .aby | .ind => 3

/-- The distance a branch at `pc0` must span to reach `target`, as the assembler counts it (R351). -/
def branchDistance (pc0 target : Word) : Int := (target.toNat : Int) - ((pc0.toNat : Int) + 2)

/-- Whether the assembler may encode a branch at `pc0` to `target` (R351): a target outside
`pc0 + 2 - 128 .. pc0 + 2 + 127` is refused. -/
def branchInRange (pc0 target : Word) : Bool :=
  decide (-128 ≤ branchDistance pc0 target ∧ branchDistance pc0 target ≤ 127)

/-- The offset byte of a branch, `u8(target - (pc0 + 2))`, or the refusal (R351). -/
def branchOffset (pc0 target : Word) : Option Byte :=
  if branchInRange pc0 target then some (BitVec.ofInt 8 (branchDistance pc0 target)) else none

end Sys2Proof
end

