-- ==== Sys2Proof/Decode.lean ====
section
/-! DEFINITION. Decoding and encoding (30_encoding.md): the opcode map of §7 read in both directions, the decoder total on
any bytes (R338), the encoder written from the same table, and the table's other columns (mode, cycles). -/

namespace Sys2Proof

/-- The 16-bit word `hh:ll` of two bytes (R11, R203: the low byte is fetched first). -/
def wordOf (hi lo : Byte) : Word := hi ++ lo

/-- `v[7:0]` of a word. -/
def loByte (w : Word) : Byte := w.setWidth 8

/-- `v[15:8]` of a word. -/
def hiByte (w : Word) : Byte := (w >>> 8).setWidth 8

/-- The three formats of R300, each with how its operand bytes make the instruction. -/
inductive Form where
  | f1 (i : Instr)
  | f2 (mk : Byte → Instr)
  | f3 (mk : Word → Instr)

/-- The opcode map of §7: what the opcode byte alone selects (R302, R338). `none` is an illegal opcode (R340). -/
def formOf (op : Nat) : Option Form :=
  match op with
  | 0x00 => some (.f1 .brk)
  | 0x01 => some (.f2 .oraIzx)
  | 0x05 => some (.f2 .oraZp)
  | 0x06 => some (.f2 .aslZp)
  | 0x08 => some (.f1 .php)
  | 0x09 => some (.f2 .oraImm)
  | 0x0A => some (.f1 .aslAcc)
  | 0x0D => some (.f3 .oraAbs)
  | 0x0E => some (.f3 .aslAbs)
  | 0x10 => some (.f2 .bpl)
  | 0x11 => some (.f2 .oraIzy)
  | 0x15 => some (.f2 .oraZpx)
  | 0x16 => some (.f2 .aslZpx)
  | 0x18 => some (.f1 .clc)
  | 0x19 => some (.f3 .oraAby)
  | 0x1D => some (.f3 .oraAbx)
  | 0x1E => some (.f3 .aslAbx)
  | 0x20 => some (.f3 .jsr)
  | 0x21 => some (.f2 .andIzx)
  | 0x24 => some (.f2 .bitZp)
  | 0x25 => some (.f2 .andZp)
  | 0x26 => some (.f2 .rolZp)
  | 0x28 => some (.f1 .plp)
  | 0x29 => some (.f2 .andImm)
  | 0x2A => some (.f1 .rolAcc)
  | 0x2C => some (.f3 .bitAbs)
  | 0x2D => some (.f3 .andAbs)
  | 0x2E => some (.f3 .rolAbs)
  | 0x30 => some (.f2 .bmi)
  | 0x31 => some (.f2 .andIzy)
  | 0x35 => some (.f2 .andZpx)
  | 0x36 => some (.f2 .rolZpx)
  | 0x38 => some (.f1 .sec)
  | 0x39 => some (.f3 .andAby)
  | 0x3D => some (.f3 .andAbx)
  | 0x3E => some (.f3 .rolAbx)
  | 0x40 => some (.f1 .rti)
  | 0x41 => some (.f2 .eorIzx)
  | 0x45 => some (.f2 .eorZp)
  | 0x46 => some (.f2 .lsrZp)
  | 0x48 => some (.f1 .pha)
  | 0x49 => some (.f2 .eorImm)
  | 0x4A => some (.f1 .lsrAcc)
  | 0x4C => some (.f3 .jmpAbs)
  | 0x4D => some (.f3 .eorAbs)
  | 0x4E => some (.f3 .lsrAbs)
  | 0x50 => some (.f2 .bvc)
  | 0x51 => some (.f2 .eorIzy)
  | 0x55 => some (.f2 .eorZpx)
  | 0x56 => some (.f2 .lsrZpx)
  | 0x58 => some (.f1 .cli)
  | 0x59 => some (.f3 .eorAby)
  | 0x5D => some (.f3 .eorAbx)
  | 0x5E => some (.f3 .lsrAbx)
  | 0x60 => some (.f1 .rts)
  | 0x61 => some (.f2 .adcIzx)
  | 0x65 => some (.f2 .adcZp)
  | 0x66 => some (.f2 .rorZp)
  | 0x68 => some (.f1 .pla)
  | 0x69 => some (.f2 .adcImm)
  | 0x6A => some (.f1 .rorAcc)
  | 0x6C => some (.f3 .jmpInd)
  | 0x6D => some (.f3 .adcAbs)
  | 0x6E => some (.f3 .rorAbs)
  | 0x70 => some (.f2 .bvs)
  | 0x71 => some (.f2 .adcIzy)
  | 0x75 => some (.f2 .adcZpx)
  | 0x76 => some (.f2 .rorZpx)
  | 0x78 => some (.f1 .sei)
  | 0x79 => some (.f3 .adcAby)
  | 0x7D => some (.f3 .adcAbx)
  | 0x7E => some (.f3 .rorAbx)
  | 0x81 => some (.f2 .staIzx)
  | 0x84 => some (.f2 .styZp)
  | 0x85 => some (.f2 .staZp)
  | 0x86 => some (.f2 .stxZp)
  | 0x88 => some (.f1 .dey)
  | 0x8A => some (.f1 .txa)
  | 0x8C => some (.f3 .styAbs)
  | 0x8D => some (.f3 .staAbs)
  | 0x8E => some (.f3 .stxAbs)
  | 0x90 => some (.f2 .bcc)
  | 0x91 => some (.f2 .staIzy)
  | 0x94 => some (.f2 .styZpx)
  | 0x95 => some (.f2 .staZpx)
  | 0x96 => some (.f2 .stxZpy)
  | 0x98 => some (.f1 .tya)
  | 0x99 => some (.f3 .staAby)
  | 0x9A => some (.f1 .txs)
  | 0x9D => some (.f3 .staAbx)
  | 0xA0 => some (.f2 .ldyImm)
  | 0xA1 => some (.f2 .ldaIzx)
  | 0xA2 => some (.f2 .ldxImm)
  | 0xA4 => some (.f2 .ldyZp)
  | 0xA5 => some (.f2 .ldaZp)
  | 0xA6 => some (.f2 .ldxZp)
  | 0xA8 => some (.f1 .tay)
  | 0xA9 => some (.f2 .ldaImm)
  | 0xAA => some (.f1 .tax)
  | 0xAC => some (.f3 .ldyAbs)
  | 0xAD => some (.f3 .ldaAbs)
  | 0xAE => some (.f3 .ldxAbs)
  | 0xB0 => some (.f2 .bcs)
  | 0xB1 => some (.f2 .ldaIzy)
  | 0xB4 => some (.f2 .ldyZpx)
  | 0xB5 => some (.f2 .ldaZpx)
  | 0xB6 => some (.f2 .ldxZpy)
  | 0xB8 => some (.f1 .clv)
  | 0xB9 => some (.f3 .ldaAby)
  | 0xBA => some (.f1 .tsx)
  | 0xBC => some (.f3 .ldyAbx)
  | 0xBD => some (.f3 .ldaAbx)
  | 0xBE => some (.f3 .ldxAby)
  | 0xC0 => some (.f2 .cpyImm)
  | 0xC1 => some (.f2 .cmpIzx)
  | 0xC4 => some (.f2 .cpyZp)
  | 0xC5 => some (.f2 .cmpZp)
  | 0xC6 => some (.f2 .decZp)
  | 0xC8 => some (.f1 .iny)
  | 0xC9 => some (.f2 .cmpImm)
  | 0xCA => some (.f1 .dex)
  | 0xCC => some (.f3 .cpyAbs)
  | 0xCD => some (.f3 .cmpAbs)
  | 0xCE => some (.f3 .decAbs)
  | 0xD0 => some (.f2 .bne)
  | 0xD1 => some (.f2 .cmpIzy)
  | 0xD5 => some (.f2 .cmpZpx)
  | 0xD6 => some (.f2 .decZpx)
  | 0xD8 => some (.f1 .cld)
  | 0xD9 => some (.f3 .cmpAby)
  | 0xDD => some (.f3 .cmpAbx)
  | 0xDE => some (.f3 .decAbx)
  | 0xE0 => some (.f2 .cpxImm)
  | 0xE1 => some (.f2 .sbcIzx)
  | 0xE4 => some (.f2 .cpxZp)
  | 0xE5 => some (.f2 .sbcZp)
  | 0xE6 => some (.f2 .incZp)
  | 0xE8 => some (.f1 .inx)
  | 0xE9 => some (.f2 .sbcImm)
  | 0xEA => some (.f1 .nop)
  | 0xEC => some (.f3 .cpxAbs)
  | 0xED => some (.f3 .sbcAbs)
  | 0xEE => some (.f3 .incAbs)
  | 0xF0 => some (.f2 .beq)
  | 0xF1 => some (.f2 .sbcIzy)
  | 0xF5 => some (.f2 .sbcZpx)
  | 0xF6 => some (.f2 .incZpx)
  | 0xF8 => some (.f1 .sed)
  | 0xF9 => some (.f3 .sbcAby)
  | 0xFD => some (.f3 .sbcAbx)
  | 0xFE => some (.f3 .incAbx)
  | _ => none

/-- Why bytes are no instruction: the opcode is one of the 105 illegal ones (R340), or bytes are missing. -/
inductive DecodeError where
  | illegalOpcode (op : Byte)
  | truncated
  deriving DecidableEq, Repr

/-- Reads one instruction from the front of a byte string and returns the bytes after it (R301, R302, R338). -/
def decode (bs : List Byte) : Except DecodeError (Instr × List Byte) :=
  match bs with
  | [] => .error .truncated
  | op :: rest =>
    match formOf op.toNat, rest with
    | none, _ => .error (.illegalOpcode op)
    | some (.f1 i), r => .ok (i, r)
    | some (.f2 mk), n :: r => .ok (mk n, r)
    | some (.f3 mk), ll :: hh :: r => .ok (mk (wordOf hh ll), r)
    | some (.f2 _), [] => .error .truncated
    | some (.f3 _), [] => .error .truncated
    | some (.f3 _), [_] => .error .truncated

/-- Format F3's bytes: opcode, low byte, high byte (R300). -/
def encode3 (op : Byte) (w : Word) : List Byte := [op, loByte w, hiByte w]

/-- The bytes of an instruction, in memory order (R300 and the table of §7). -/
def encode (i : Instr) : List Byte :=
  match i with
  | .brk => [0x00]
  | .oraIzx n => [0x01, n]
  | .oraZp n => [0x05, n]
  | .aslZp n => [0x06, n]
  | .php => [0x08]
  | .oraImm n => [0x09, n]
  | .aslAcc => [0x0A]
  | .oraAbs w => encode3 0x0D w
  | .aslAbs w => encode3 0x0E w
  | .bpl n => [0x10, n]
  | .oraIzy n => [0x11, n]
  | .oraZpx n => [0x15, n]
  | .aslZpx n => [0x16, n]
  | .clc => [0x18]
  | .oraAby w => encode3 0x19 w
  | .oraAbx w => encode3 0x1D w
  | .aslAbx w => encode3 0x1E w
  | .jsr w => encode3 0x20 w
  | .andIzx n => [0x21, n]
  | .bitZp n => [0x24, n]
  | .andZp n => [0x25, n]
  | .rolZp n => [0x26, n]
  | .plp => [0x28]
  | .andImm n => [0x29, n]
  | .rolAcc => [0x2A]
  | .bitAbs w => encode3 0x2C w
  | .andAbs w => encode3 0x2D w
  | .rolAbs w => encode3 0x2E w
  | .bmi n => [0x30, n]
  | .andIzy n => [0x31, n]
  | .andZpx n => [0x35, n]
  | .rolZpx n => [0x36, n]
  | .sec => [0x38]
  | .andAby w => encode3 0x39 w
  | .andAbx w => encode3 0x3D w
  | .rolAbx w => encode3 0x3E w
  | .rti => [0x40]
  | .eorIzx n => [0x41, n]
  | .eorZp n => [0x45, n]
  | .lsrZp n => [0x46, n]
  | .pha => [0x48]
  | .eorImm n => [0x49, n]
  | .lsrAcc => [0x4A]
  | .jmpAbs w => encode3 0x4C w
  | .eorAbs w => encode3 0x4D w
  | .lsrAbs w => encode3 0x4E w
  | .bvc n => [0x50, n]
  | .eorIzy n => [0x51, n]
  | .eorZpx n => [0x55, n]
  | .lsrZpx n => [0x56, n]
  | .cli => [0x58]
  | .eorAby w => encode3 0x59 w
  | .eorAbx w => encode3 0x5D w
  | .lsrAbx w => encode3 0x5E w
  | .rts => [0x60]
  | .adcIzx n => [0x61, n]
  | .adcZp n => [0x65, n]
  | .rorZp n => [0x66, n]
  | .pla => [0x68]
  | .adcImm n => [0x69, n]
  | .rorAcc => [0x6A]
  | .jmpInd w => encode3 0x6C w
  | .adcAbs w => encode3 0x6D w
  | .rorAbs w => encode3 0x6E w
  | .bvs n => [0x70, n]
  | .adcIzy n => [0x71, n]
  | .adcZpx n => [0x75, n]
  | .rorZpx n => [0x76, n]
  | .sei => [0x78]
  | .adcAby w => encode3 0x79 w
  | .adcAbx w => encode3 0x7D w
  | .rorAbx w => encode3 0x7E w
  | .staIzx n => [0x81, n]
  | .styZp n => [0x84, n]
  | .staZp n => [0x85, n]
  | .stxZp n => [0x86, n]
  | .dey => [0x88]
  | .txa => [0x8A]
  | .styAbs w => encode3 0x8C w
  | .staAbs w => encode3 0x8D w
  | .stxAbs w => encode3 0x8E w
  | .bcc n => [0x90, n]
  | .staIzy n => [0x91, n]
  | .styZpx n => [0x94, n]
  | .staZpx n => [0x95, n]
  | .stxZpy n => [0x96, n]
  | .tya => [0x98]
  | .staAby w => encode3 0x99 w
  | .txs => [0x9A]
  | .staAbx w => encode3 0x9D w
  | .ldyImm n => [0xA0, n]
  | .ldaIzx n => [0xA1, n]
  | .ldxImm n => [0xA2, n]
  | .ldyZp n => [0xA4, n]
  | .ldaZp n => [0xA5, n]
  | .ldxZp n => [0xA6, n]
  | .tay => [0xA8]
  | .ldaImm n => [0xA9, n]
  | .tax => [0xAA]
  | .ldyAbs w => encode3 0xAC w
  | .ldaAbs w => encode3 0xAD w
  | .ldxAbs w => encode3 0xAE w
  | .bcs n => [0xB0, n]
  | .ldaIzy n => [0xB1, n]
  | .ldyZpx n => [0xB4, n]
  | .ldaZpx n => [0xB5, n]
  | .ldxZpy n => [0xB6, n]
  | .clv => [0xB8]
  | .ldaAby w => encode3 0xB9 w
  | .tsx => [0xBA]
  | .ldyAbx w => encode3 0xBC w
  | .ldaAbx w => encode3 0xBD w
  | .ldxAby w => encode3 0xBE w
  | .cpyImm n => [0xC0, n]
  | .cmpIzx n => [0xC1, n]
  | .cpyZp n => [0xC4, n]
  | .cmpZp n => [0xC5, n]
  | .decZp n => [0xC6, n]
  | .iny => [0xC8]
  | .cmpImm n => [0xC9, n]
  | .dex => [0xCA]
  | .cpyAbs w => encode3 0xCC w
  | .cmpAbs w => encode3 0xCD w
  | .decAbs w => encode3 0xCE w
  | .bne n => [0xD0, n]
  | .cmpIzy n => [0xD1, n]
  | .cmpZpx n => [0xD5, n]
  | .decZpx n => [0xD6, n]
  | .cld => [0xD8]
  | .cmpAby w => encode3 0xD9 w
  | .cmpAbx w => encode3 0xDD w
  | .decAbx w => encode3 0xDE w
  | .cpxImm n => [0xE0, n]
  | .sbcIzx n => [0xE1, n]
  | .cpxZp n => [0xE4, n]
  | .sbcZp n => [0xE5, n]
  | .incZp n => [0xE6, n]
  | .inx => [0xE8]
  | .sbcImm n => [0xE9, n]
  | .nop => [0xEA]
  | .cpxAbs w => encode3 0xEC w
  | .sbcAbs w => encode3 0xED w
  | .incAbs w => encode3 0xEE w
  | .beq n => [0xF0, n]
  | .sbcIzy n => [0xF1, n]
  | .sbcZpx n => [0xF5, n]
  | .incZpx n => [0xF6, n]
  | .sed => [0xF8]
  | .sbcAby w => encode3 0xF9 w
  | .sbcAbx w => encode3 0xFD w
  | .incAbx w => encode3 0xFE w

/-- The addressing mode column of the table (§3). -/
def Instr.mode (i : Instr) : Mode :=
  match i with
  | .brk => .imp
  | .oraIzx _ => .izx
  | .oraZp _ => .zp
  | .aslZp _ => .zp
  | .php => .imp
  | .oraImm _ => .imm
  | .aslAcc => .acc
  | .oraAbs _ => .abs
  | .aslAbs _ => .abs
  | .bpl _ => .rel
  | .oraIzy _ => .izy
  | .oraZpx _ => .zpx
  | .aslZpx _ => .zpx
  | .clc => .imp
  | .oraAby _ => .aby
  | .oraAbx _ => .abx
  | .aslAbx _ => .abx
  | .jsr _ => .abs
  | .andIzx _ => .izx
  | .bitZp _ => .zp
  | .andZp _ => .zp
  | .rolZp _ => .zp
  | .plp => .imp
  | .andImm _ => .imm
  | .rolAcc => .acc
  | .bitAbs _ => .abs
  | .andAbs _ => .abs
  | .rolAbs _ => .abs
  | .bmi _ => .rel
  | .andIzy _ => .izy
  | .andZpx _ => .zpx
  | .rolZpx _ => .zpx
  | .sec => .imp
  | .andAby _ => .aby
  | .andAbx _ => .abx
  | .rolAbx _ => .abx
  | .rti => .imp
  | .eorIzx _ => .izx
  | .eorZp _ => .zp
  | .lsrZp _ => .zp
  | .pha => .imp
  | .eorImm _ => .imm
  | .lsrAcc => .acc
  | .jmpAbs _ => .abs
  | .eorAbs _ => .abs
  | .lsrAbs _ => .abs
  | .bvc _ => .rel
  | .eorIzy _ => .izy
  | .eorZpx _ => .zpx
  | .lsrZpx _ => .zpx
  | .cli => .imp
  | .eorAby _ => .aby
  | .eorAbx _ => .abx
  | .lsrAbx _ => .abx
  | .rts => .imp
  | .adcIzx _ => .izx
  | .adcZp _ => .zp
  | .rorZp _ => .zp
  | .pla => .imp
  | .adcImm _ => .imm
  | .rorAcc => .acc
  | .jmpInd _ => .ind
  | .adcAbs _ => .abs
  | .rorAbs _ => .abs
  | .bvs _ => .rel
  | .adcIzy _ => .izy
  | .adcZpx _ => .zpx
  | .rorZpx _ => .zpx
  | .sei => .imp
  | .adcAby _ => .aby
  | .adcAbx _ => .abx
  | .rorAbx _ => .abx
  | .staIzx _ => .izx
  | .styZp _ => .zp
  | .staZp _ => .zp
  | .stxZp _ => .zp
  | .dey => .imp
  | .txa => .imp
  | .styAbs _ => .abs
  | .staAbs _ => .abs
  | .stxAbs _ => .abs
  | .bcc _ => .rel
  | .staIzy _ => .izy
  | .styZpx _ => .zpx
  | .staZpx _ => .zpx
  | .stxZpy _ => .zpy
  | .tya => .imp
  | .staAby _ => .aby
  | .txs => .imp
  | .staAbx _ => .abx
  | .ldyImm _ => .imm
  | .ldaIzx _ => .izx
  | .ldxImm _ => .imm
  | .ldyZp _ => .zp
  | .ldaZp _ => .zp
  | .ldxZp _ => .zp
  | .tay => .imp
  | .ldaImm _ => .imm
  | .tax => .imp
  | .ldyAbs _ => .abs
  | .ldaAbs _ => .abs
  | .ldxAbs _ => .abs
  | .bcs _ => .rel
  | .ldaIzy _ => .izy
  | .ldyZpx _ => .zpx
  | .ldaZpx _ => .zpx
  | .ldxZpy _ => .zpy
  | .clv => .imp
  | .ldaAby _ => .aby
  | .tsx => .imp
  | .ldyAbx _ => .abx
  | .ldaAbx _ => .abx
  | .ldxAby _ => .aby
  | .cpyImm _ => .imm
  | .cmpIzx _ => .izx
  | .cpyZp _ => .zp
  | .cmpZp _ => .zp
  | .decZp _ => .zp
  | .iny => .imp
  | .cmpImm _ => .imm
  | .dex => .imp
  | .cpyAbs _ => .abs
  | .cmpAbs _ => .abs
  | .decAbs _ => .abs
  | .bne _ => .rel
  | .cmpIzy _ => .izy
  | .cmpZpx _ => .zpx
  | .decZpx _ => .zpx
  | .cld => .imp
  | .cmpAby _ => .aby
  | .cmpAbx _ => .abx
  | .decAbx _ => .abx
  | .cpxImm _ => .imm
  | .sbcIzx _ => .izx
  | .cpxZp _ => .zp
  | .sbcZp _ => .zp
  | .incZp _ => .zp
  | .inx => .imp
  | .sbcImm _ => .imm
  | .nop => .imp
  | .cpxAbs _ => .abs
  | .sbcAbs _ => .abs
  | .incAbs _ => .abs
  | .beq _ => .rel
  | .sbcIzy _ => .izy
  | .sbcZpx _ => .zpx
  | .incZpx _ => .zpx
  | .sed => .imp
  | .sbcAby _ => .aby
  | .sbcAbx _ => .abx
  | .incAbx _ => .abx

/-- The mnemonic column of the table. -/
def Instr.mnemonic (i : Instr) : String :=
  match i with
  | .brk => "BRK"
  | .oraIzx _ => "ORA"
  | .oraZp _ => "ORA"
  | .aslZp _ => "ASL"
  | .php => "PHP"
  | .oraImm _ => "ORA"
  | .aslAcc => "ASL"
  | .oraAbs _ => "ORA"
  | .aslAbs _ => "ASL"
  | .bpl _ => "BPL"
  | .oraIzy _ => "ORA"
  | .oraZpx _ => "ORA"
  | .aslZpx _ => "ASL"
  | .clc => "CLC"
  | .oraAby _ => "ORA"
  | .oraAbx _ => "ORA"
  | .aslAbx _ => "ASL"
  | .jsr _ => "JSR"
  | .andIzx _ => "AND"
  | .bitZp _ => "BIT"
  | .andZp _ => "AND"
  | .rolZp _ => "ROL"
  | .plp => "PLP"
  | .andImm _ => "AND"
  | .rolAcc => "ROL"
  | .bitAbs _ => "BIT"
  | .andAbs _ => "AND"
  | .rolAbs _ => "ROL"
  | .bmi _ => "BMI"
  | .andIzy _ => "AND"
  | .andZpx _ => "AND"
  | .rolZpx _ => "ROL"
  | .sec => "SEC"
  | .andAby _ => "AND"
  | .andAbx _ => "AND"
  | .rolAbx _ => "ROL"
  | .rti => "RTI"
  | .eorIzx _ => "EOR"
  | .eorZp _ => "EOR"
  | .lsrZp _ => "LSR"
  | .pha => "PHA"
  | .eorImm _ => "EOR"
  | .lsrAcc => "LSR"
  | .jmpAbs _ => "JMP"
  | .eorAbs _ => "EOR"
  | .lsrAbs _ => "LSR"
  | .bvc _ => "BVC"
  | .eorIzy _ => "EOR"
  | .eorZpx _ => "EOR"
  | .lsrZpx _ => "LSR"
  | .cli => "CLI"
  | .eorAby _ => "EOR"
  | .eorAbx _ => "EOR"
  | .lsrAbx _ => "LSR"
  | .rts => "RTS"
  | .adcIzx _ => "ADC"
  | .adcZp _ => "ADC"
  | .rorZp _ => "ROR"
  | .pla => "PLA"
  | .adcImm _ => "ADC"
  | .rorAcc => "ROR"
  | .jmpInd _ => "JMP"
  | .adcAbs _ => "ADC"
  | .rorAbs _ => "ROR"
  | .bvs _ => "BVS"
  | .adcIzy _ => "ADC"
  | .adcZpx _ => "ADC"
  | .rorZpx _ => "ROR"
  | .sei => "SEI"
  | .adcAby _ => "ADC"
  | .adcAbx _ => "ADC"
  | .rorAbx _ => "ROR"
  | .staIzx _ => "STA"
  | .styZp _ => "STY"
  | .staZp _ => "STA"
  | .stxZp _ => "STX"
  | .dey => "DEY"
  | .txa => "TXA"
  | .styAbs _ => "STY"
  | .staAbs _ => "STA"
  | .stxAbs _ => "STX"
  | .bcc _ => "BCC"
  | .staIzy _ => "STA"
  | .styZpx _ => "STY"
  | .staZpx _ => "STA"
  | .stxZpy _ => "STX"
  | .tya => "TYA"
  | .staAby _ => "STA"
  | .txs => "TXS"
  | .staAbx _ => "STA"
  | .ldyImm _ => "LDY"
  | .ldaIzx _ => "LDA"
  | .ldxImm _ => "LDX"
  | .ldyZp _ => "LDY"
  | .ldaZp _ => "LDA"
  | .ldxZp _ => "LDX"
  | .tay => "TAY"
  | .ldaImm _ => "LDA"
  | .tax => "TAX"
  | .ldyAbs _ => "LDY"
  | .ldaAbs _ => "LDA"
  | .ldxAbs _ => "LDX"
  | .bcs _ => "BCS"
  | .ldaIzy _ => "LDA"
  | .ldyZpx _ => "LDY"
  | .ldaZpx _ => "LDA"
  | .ldxZpy _ => "LDX"
  | .clv => "CLV"
  | .ldaAby _ => "LDA"
  | .tsx => "TSX"
  | .ldyAbx _ => "LDY"
  | .ldaAbx _ => "LDA"
  | .ldxAby _ => "LDX"
  | .cpyImm _ => "CPY"
  | .cmpIzx _ => "CMP"
  | .cpyZp _ => "CPY"
  | .cmpZp _ => "CMP"
  | .decZp _ => "DEC"
  | .iny => "INY"
  | .cmpImm _ => "CMP"
  | .dex => "DEX"
  | .cpyAbs _ => "CPY"
  | .cmpAbs _ => "CMP"
  | .decAbs _ => "DEC"
  | .bne _ => "BNE"
  | .cmpIzy _ => "CMP"
  | .cmpZpx _ => "CMP"
  | .decZpx _ => "DEC"
  | .cld => "CLD"
  | .cmpAby _ => "CMP"
  | .cmpAbx _ => "CMP"
  | .decAbx _ => "DEC"
  | .cpxImm _ => "CPX"
  | .sbcIzx _ => "SBC"
  | .cpxZp _ => "CPX"
  | .sbcZp _ => "SBC"
  | .incZp _ => "INC"
  | .inx => "INX"
  | .sbcImm _ => "SBC"
  | .nop => "NOP"
  | .cpxAbs _ => "CPX"
  | .sbcAbs _ => "SBC"
  | .incAbs _ => "INC"
  | .beq _ => "BEQ"
  | .sbcIzy _ => "SBC"
  | .sbcZpx _ => "SBC"
  | .incZpx _ => "INC"
  | .sed => "SED"
  | .sbcAby _ => "SBC"
  | .sbcAbx _ => "SBC"
  | .incAbx _ => "INC"

/-- The base cycle count of the table (70_reset_and_hazards.md R1010, R1013). -/
def Instr.baseCycles (i : Instr) : Nat :=
  match i with
  | .brk => 7
  | .oraIzx _ => 6
  | .oraZp _ => 3
  | .aslZp _ => 5
  | .php => 3
  | .oraImm _ => 2
  | .aslAcc => 2
  | .oraAbs _ => 4
  | .aslAbs _ => 6
  | .bpl _ => 2
  | .oraIzy _ => 5
  | .oraZpx _ => 4
  | .aslZpx _ => 6
  | .clc => 2
  | .oraAby _ => 4
  | .oraAbx _ => 4
  | .aslAbx _ => 7
  | .jsr _ => 6
  | .andIzx _ => 6
  | .bitZp _ => 3
  | .andZp _ => 3
  | .rolZp _ => 5
  | .plp => 4
  | .andImm _ => 2
  | .rolAcc => 2
  | .bitAbs _ => 4
  | .andAbs _ => 4
  | .rolAbs _ => 6
  | .bmi _ => 2
  | .andIzy _ => 5
  | .andZpx _ => 4
  | .rolZpx _ => 6
  | .sec => 2
  | .andAby _ => 4
  | .andAbx _ => 4
  | .rolAbx _ => 7
  | .rti => 6
  | .eorIzx _ => 6
  | .eorZp _ => 3
  | .lsrZp _ => 5
  | .pha => 3
  | .eorImm _ => 2
  | .lsrAcc => 2
  | .jmpAbs _ => 3
  | .eorAbs _ => 4
  | .lsrAbs _ => 6
  | .bvc _ => 2
  | .eorIzy _ => 5
  | .eorZpx _ => 4
  | .lsrZpx _ => 6
  | .cli => 2
  | .eorAby _ => 4
  | .eorAbx _ => 4
  | .lsrAbx _ => 7
  | .rts => 6
  | .adcIzx _ => 6
  | .adcZp _ => 3
  | .rorZp _ => 5
  | .pla => 4
  | .adcImm _ => 2
  | .rorAcc => 2
  | .jmpInd _ => 5
  | .adcAbs _ => 4
  | .rorAbs _ => 6
  | .bvs _ => 2
  | .adcIzy _ => 5
  | .adcZpx _ => 4
  | .rorZpx _ => 6
  | .sei => 2
  | .adcAby _ => 4
  | .adcAbx _ => 4
  | .rorAbx _ => 7
  | .staIzx _ => 6
  | .styZp _ => 3
  | .staZp _ => 3
  | .stxZp _ => 3
  | .dey => 2
  | .txa => 2
  | .styAbs _ => 4
  | .staAbs _ => 4
  | .stxAbs _ => 4
  | .bcc _ => 2
  | .staIzy _ => 6
  | .styZpx _ => 4
  | .staZpx _ => 4
  | .stxZpy _ => 4
  | .tya => 2
  | .staAby _ => 5
  | .txs => 2
  | .staAbx _ => 5
  | .ldyImm _ => 2
  | .ldaIzx _ => 6
  | .ldxImm _ => 2
  | .ldyZp _ => 3
  | .ldaZp _ => 3
  | .ldxZp _ => 3
  | .tay => 2
  | .ldaImm _ => 2
  | .tax => 2
  | .ldyAbs _ => 4
  | .ldaAbs _ => 4
  | .ldxAbs _ => 4
  | .bcs _ => 2
  | .ldaIzy _ => 5
  | .ldyZpx _ => 4
  | .ldaZpx _ => 4
  | .ldxZpy _ => 4
  | .clv => 2
  | .ldaAby _ => 4
  | .tsx => 2
  | .ldyAbx _ => 4
  | .ldaAbx _ => 4
  | .ldxAby _ => 4
  | .cpyImm _ => 2
  | .cmpIzx _ => 6
  | .cpyZp _ => 3
  | .cmpZp _ => 3
  | .decZp _ => 5
  | .iny => 2
  | .cmpImm _ => 2
  | .dex => 2
  | .cpyAbs _ => 4
  | .cmpAbs _ => 4
  | .decAbs _ => 6
  | .bne _ => 2
  | .cmpIzy _ => 5
  | .cmpZpx _ => 4
  | .decZpx _ => 6
  | .cld => 2
  | .cmpAby _ => 4
  | .cmpAbx _ => 4
  | .decAbx _ => 7
  | .cpxImm _ => 2
  | .sbcIzx _ => 6
  | .cpxZp _ => 3
  | .sbcZp _ => 3
  | .incZp _ => 5
  | .inx => 2
  | .sbcImm _ => 2
  | .nop => 2
  | .cpxAbs _ => 4
  | .sbcAbs _ => 4
  | .incAbs _ => 6
  | .beq _ => 2
  | .sbcIzy _ => 5
  | .sbcZpx _ => 4
  | .incZpx _ => 6
  | .sed => 2
  | .sbcAby _ => 4
  | .sbcAbx _ => 4
  | .incAbx _ => 7

/-- The 23 rows marked `+1` in the table: the page-crossing penalty applies (R1011). -/
def Instr.pagePenalty (i : Instr) : Bool :=
  match i with
  | .oraIzy _ => true
  | .oraAby _ => true
  | .oraAbx _ => true
  | .andIzy _ => true
  | .andAby _ => true
  | .andAbx _ => true
  | .eorIzy _ => true
  | .eorAby _ => true
  | .eorAbx _ => true
  | .adcIzy _ => true
  | .adcAby _ => true
  | .adcAbx _ => true
  | .ldaIzy _ => true
  | .ldaAby _ => true
  | .ldyAbx _ => true
  | .ldaAbx _ => true
  | .ldxAby _ => true
  | .cmpIzy _ => true
  | .cmpAby _ => true
  | .cmpAbx _ => true
  | .sbcIzy _ => true
  | .sbcAby _ => true
  | .sbcAbx _ => true
  | _ => false

/-- The form an assembler selects for an address operand: below $100 the zero-page form where one exists (R351). -/
def Instr.shortForm (i : Instr) : Instr :=
  match i with
  | .oraAbs w => if w.toNat < 0x100 then .oraZp (loByte w) else .oraAbs w
  | .aslAbs w => if w.toNat < 0x100 then .aslZp (loByte w) else .aslAbs w
  | .oraAbx w => if w.toNat < 0x100 then .oraZpx (loByte w) else .oraAbx w
  | .aslAbx w => if w.toNat < 0x100 then .aslZpx (loByte w) else .aslAbx w
  | .bitAbs w => if w.toNat < 0x100 then .bitZp (loByte w) else .bitAbs w
  | .andAbs w => if w.toNat < 0x100 then .andZp (loByte w) else .andAbs w
  | .rolAbs w => if w.toNat < 0x100 then .rolZp (loByte w) else .rolAbs w
  | .andAbx w => if w.toNat < 0x100 then .andZpx (loByte w) else .andAbx w
  | .rolAbx w => if w.toNat < 0x100 then .rolZpx (loByte w) else .rolAbx w
  | .eorAbs w => if w.toNat < 0x100 then .eorZp (loByte w) else .eorAbs w
  | .lsrAbs w => if w.toNat < 0x100 then .lsrZp (loByte w) else .lsrAbs w
  | .eorAbx w => if w.toNat < 0x100 then .eorZpx (loByte w) else .eorAbx w
  | .lsrAbx w => if w.toNat < 0x100 then .lsrZpx (loByte w) else .lsrAbx w
  | .adcAbs w => if w.toNat < 0x100 then .adcZp (loByte w) else .adcAbs w
  | .rorAbs w => if w.toNat < 0x100 then .rorZp (loByte w) else .rorAbs w
  | .adcAbx w => if w.toNat < 0x100 then .adcZpx (loByte w) else .adcAbx w
  | .rorAbx w => if w.toNat < 0x100 then .rorZpx (loByte w) else .rorAbx w
  | .styAbs w => if w.toNat < 0x100 then .styZp (loByte w) else .styAbs w
  | .staAbs w => if w.toNat < 0x100 then .staZp (loByte w) else .staAbs w
  | .stxAbs w => if w.toNat < 0x100 then .stxZp (loByte w) else .stxAbs w
  | .staAbx w => if w.toNat < 0x100 then .staZpx (loByte w) else .staAbx w
  | .ldyAbs w => if w.toNat < 0x100 then .ldyZp (loByte w) else .ldyAbs w
  | .ldaAbs w => if w.toNat < 0x100 then .ldaZp (loByte w) else .ldaAbs w
  | .ldxAbs w => if w.toNat < 0x100 then .ldxZp (loByte w) else .ldxAbs w
  | .ldyAbx w => if w.toNat < 0x100 then .ldyZpx (loByte w) else .ldyAbx w
  | .ldaAbx w => if w.toNat < 0x100 then .ldaZpx (loByte w) else .ldaAbx w
  | .ldxAby w => if w.toNat < 0x100 then .ldxZpy (loByte w) else .ldxAby w
  | .cpyAbs w => if w.toNat < 0x100 then .cpyZp (loByte w) else .cpyAbs w
  | .cmpAbs w => if w.toNat < 0x100 then .cmpZp (loByte w) else .cmpAbs w
  | .decAbs w => if w.toNat < 0x100 then .decZp (loByte w) else .decAbs w
  | .cmpAbx w => if w.toNat < 0x100 then .cmpZpx (loByte w) else .cmpAbx w
  | .decAbx w => if w.toNat < 0x100 then .decZpx (loByte w) else .decAbx w
  | .cpxAbs w => if w.toNat < 0x100 then .cpxZp (loByte w) else .cpxAbs w
  | .sbcAbs w => if w.toNat < 0x100 then .sbcZp (loByte w) else .sbcAbs w
  | .incAbs w => if w.toNat < 0x100 then .incZp (loByte w) else .incAbs w
  | .sbcAbx w => if w.toNat < 0x100 then .sbcZpx (loByte w) else .sbcAbx w
  | .incAbx w => if w.toNat < 0x100 then .incZpx (loByte w) else .incAbx w
  | i => i

/-- One hexadecimal digit. -/
def hexDigit (k : Nat) : String := ("0123456789ABCDEF".toList.getD k '0').toString

/-- A byte as the assembler writes it: `$` and two digits (R350). -/
def hexByte (b : Byte) : String := "$" ++ hexDigit (b.toNat / 16) ++ hexDigit (b.toNat % 16)

/-- A word as the assembler writes it. -/
def hexWord (w : Word) : String :=
  "$" ++ hexDigit (w.toNat / 4096) ++ hexDigit (w.toNat / 256 % 16) ++ hexDigit (w.toNat / 16 % 16) ++ hexDigit (w.toNat % 16)

/-- The address after a two-byte branch at `pc0`, plus its signed offset (R332, R351). -/
def branchTarget (pc0 : Word) (r : Byte) : Word := pc0 + 2 + r.signExtend 16

/-- The operand text of a mode, from the bytes after the opcode (R351); `pc0` is the instruction's address. -/
def operandText (m : Mode) (pc0 : Word) (ops : List Byte) : String :=
  let n := ops.getD 0 0
  let w := wordOf (ops.getD 1 0) n
  match m with
  | .imp => ""
  | .acc => " A"
  | .imm => " #" ++ hexByte n
  | .zp => " " ++ hexByte n
  | .zpx => " " ++ hexByte n ++ ",X"
  | .zpy => " " ++ hexByte n ++ ",Y"
  | .abs => " " ++ hexWord w
  | .abx => " " ++ hexWord w ++ ",X"
  | .aby => " " ++ hexWord w ++ ",Y"
  | .ind => " (" ++ hexWord w ++ ")"
  | .izx => " (" ++ hexByte n ++ ",X)"
  | .izy => " (" ++ hexByte n ++ "),Y"
  | .rel => " " ++ hexWord (branchTarget pc0 n)

/-- The assembly text of the instruction at `pc0` (R350, R351). -/
def Instr.text (i : Instr) (pc0 : Word) : String :=
  i.mnemonic ++ operandText i.mode pc0 (encode i).tail

/-- The three bytes the table's bit numbering gives: bit 0 of `w` is bit 0 of the first byte, and every bit above
`nbits` is 0. -/
def tableBytes (nbits w : Nat) : List Byte :=
  let v := w % 2 ^ nbits
  [BitVec.ofNat 8 v, BitVec.ofNat 8 (v / 256), BitVec.ofNat 8 (v / 65536)]

/-- The instruction the decoder reads from a table word (the host's question). -/
def decodeTableWord (nbits w : Nat) : Option Instr :=
  match decode (tableBytes nbits w) with
  | .ok (i, _) => some i
  | .error _ => none

end Sys2Proof
end

