-- ==== Sys2Proof/Machine/Bits.lean ====
section
/-! DEFINITION. Bit-field helpers (00_scope.md R10, R11), used by every unit. -/

namespace Sys2Proof.Machine

/-- `v[lo + len - 1 : lo]` (R10). -/
def field {n : Nat} (v : BitVec n) (lo len : Nat) : BitVec len := v.extractLsb' lo len

/-- `v` with the bits from `lo` up replaced by `f`: the assignment `v[hi:lo] <- f`. -/
def putField {n k : Nat} (v : BitVec n) (lo : Nat) (f : BitVec k) : BitVec n :=
  (v &&& ~~~((BitVec.allOnes k).setWidth n <<< lo)) ||| (f.setWidth n <<< lo)

/-- `v[i]` (R10). -/
def bitAt {n : Nat} (v : BitVec n) (i : Nat) : Bool := v.getLsbD i

/-- A truth value as a number: 1 for true (R16). -/
def boolNat (b : Bool) : Nat := if b then 1 else 0

/-- The sign-extended value of a byte as a 16-bit word, for relative offsets (R11 `s8`, R313). -/
def s8Word (b : Byte) : Word := b.signExtend 16

/-- A byte zero-extended to a word: a zero-page address (R311). -/
def zeroPage (b : Byte) : Word := b.setWidth 16

/-- The page (high byte) of an address (R20). -/
def page (a : Word) : Byte := hiByte a

/-- Entry `i` of a fixed-size vector, or `d` past its end. -/
def entry {α : Type} {n : Nat} (v : Vector α n) (i : Nat) (d : α) : α := v.toList.getD i d

/-- Entry `i` of a table of numbers. -/
def tableAt (t : List Nat) (i : Nat) : Nat := t.getD i 0

end Sys2Proof.Machine
end

