-- ==== Sys2Proof/Config.lean ====
section
/-! DEFINITION. What the spec leaves to the machine's owner (00_scope.md rule R8, the rows marked OPEN) and is no input of a
step: the audio sample period. `EXT_IRQ`, the other OPEN row, is an input the caller sets between steps and stands in
State. The rows of R8 with a value are written where they are used. -/

namespace Sys2Proof.Config

/-- One less than the numerator of `SAMPLE_PERIOD` (R8, 62_apu.md R980): open, nothing constrains it. -/
opaque samplePeriodNumPred : Nat

/-- One less than the denominator of `SAMPLE_PERIOD`: open, nothing constrains it. -/
opaque samplePeriodDenPred : Nat

/-- `SAMPLE_PERIOD`, CPU cycles for each audio sample: any positive rational (R8, R980). -/
def samplePeriod : Rat := ((samplePeriodNumPred + 1 : Nat) : Rat) / ((samplePeriodDenPred + 1 : Nat) : Rat)

end Sys2Proof.Config
end

