-- ==== Sys2Proof/Machine/State.lean ====
section
/-! DEFINITION. The machine's state as plain data (10_state.md, 20_memory.md, 61_ppu.md R800, 62_apu.md R900,
60_exceptions.md R760 to R763), the reasons a step can stop, and the state after reset (70_reset_and_hazards.md R1030).
INVENTORY.md lists every field with its rule and its reset value. -/

namespace Sys2Proof.Machine

/-- A sparse memory of `w`-bit entries: pairs of an index and its entry, indexes strictly rising, no entry equal to what
an unlisted index reads as (log 4). -/
abbrev Store (w : Nat) := List (Nat × BitVec w)

/-- A memory of bytes: a list of `Host.Cell`. -/
abbrev Memory := List Host.Cell

/-- The stored flags of P (R110): B and bit 5 have no storage. -/
structure Flags where
  c : Bool
  z : Bool
  i : Bool
  d : Bool
  v : Bool
  n : Bool
  deriving DecidableEq, Repr

/-- The CPU's registers (R100 to R125). -/
structure Regs where
  a : Byte
  x : Byte
  y : Byte
  sp : Byte
  pc : Word
  p : Flags
  deriving DecidableEq, Repr

/-- What the fault register holds: the illegal opcode and its address (R150). -/
structure IllegalOp where
  op : Byte
  addr : Word
  deriving DecidableEq, Repr

/-- The two interrupts that have an entry of their own (R701 codes 2 and 3). -/
inductive InterruptKind where
  | nmi
  | irq
  deriving DecidableEq, Repr

/-- What a step returns to its caller (R712, R1002); `notStepped` stands before the first step after a reset. -/
inductive StepResult where
  | notStepped
  | instruction (n : Nat)
  | interrupt (kind : InterruptKind) (n : Nat)
  | fault (f : IllegalOp)
  deriving DecidableEq, Repr

/-- The CPU's hidden state (R140 to R150), and the model's own three fields: the cycle count of the running step, the
table's base count of the running instruction and the value the last step returned (log 5). -/
structure Control where
  cyclesTotal : Nat
  nmiPending : Bool
  stallCycles : Nat
  instrPc : Word
  instrCycle : Nat
  fault : Option IllegalOp
  stepCycles : Nat
  stepBase : Nat
  lastResult : StepResult
  deriving DecidableEq, Repr

/-- The cartridge's declared nametable mirroring (R222, R223). -/
inductive Mirroring where
  | horizontal
  | vertical
  deriving DecidableEq, Repr

/-- The three mappers (R8 `MAPPERS`, R230 to R233), named by their ids. -/
inductive Mapper where
  | m0
  | m2
  | m3
  deriving DecidableEq, Repr

/-- A loaded cartridge (R222). `chrBanks = 0` says that `chr` is 8192 bytes of RAM (R220). -/
structure Cart where
  prgRom : Memory
  prgBanks : Nat
  chr : Memory
  chrBanks : Nat
  prgRam : Memory
  mirroring : Mirroring
  mapper : Mapper
  prgSel : Nat
  chrSel : Nat
  deriving DecidableEq, Repr

/-- The background fetch latches and shift registers (R800, R850, R855). -/
structure BgPipe where
  ntLatch : Byte
  atLatch : BitVec 2
  ptLoLatch : Byte
  ptHiLatch : Byte
  patLo : BitVec 16
  patHi : BitVec 16
  attLo : BitVec 16
  attHi : BitVec 16
  deriving DecidableEq, Repr

/-- One sprite line buffer (R862). -/
structure SpriteSlot where
  patLo : Byte
  patHi : Byte
  attr : Byte
  x : Byte
  deriving DecidableEq, Repr

/-- The sprite unit: secondary OAM, the chosen sprites' count, whether sprite 0 is among them, the eight line buffers
(R861, R862). -/
structure Sprites where
  secOam : Vector Byte 32
  count : Nat
  zeroHere : Bool
  slots : Vector SpriteSlot 8
  deriving DecidableEq, Repr

/-- The PPU (R800) with its memories (R242 to R245) and the frame buffer (R880, keyed `256 * row + column`). -/
structure Ppu where
  ctrl : Byte
  mask : Byte
  vblank : Bool
  sprite0Hit : Bool
  spriteOverflow : Bool
  oamAddr : Byte
  v : BitVec 15
  t : BitVec 15
  fineX : BitVec 3
  w : Bool
  readBuffer : Byte
  ioLatch : Byte
  scanline : Nat
  dot : Nat
  oddFrame : Bool
  frame : Nat
  bg : BgPipe
  spr : Sprites
  vram : Memory
  palette : Store 6
  oam : Memory
  fb : Store 9
  deriving DecidableEq, Repr

/-- An envelope's own state (R931). -/
structure Envelope where
  start : Bool
  divider : BitVec 4
  decay : BitVec 4
  deriving DecidableEq, Repr

/-- A pulse channel (R900, R910 to R913). -/
structure Pulse where
  enabled : Bool
  duty : BitVec 2
  halt : Bool
  constVol : Bool
  vol : BitVec 4
  env : Envelope
  swEnable : Bool
  swPeriod : BitVec 3
  swNegate : Bool
  swShift : BitVec 3
  swReload : Bool
  swDivider : BitVec 3
  timerPeriod : BitVec 11
  timer : BitVec 11
  seq : BitVec 3
  length : Nat
  deriving DecidableEq, Repr

/-- The triangle channel (R900, R914, R915, R935). -/
structure Triangle where
  enabled : Bool
  control : Bool
  linReloadValue : BitVec 7
  linCounter : BitVec 7
  linReload : Bool
  timerPeriod : BitVec 11
  timer : BitVec 11
  seq : BitVec 5
  length : Nat
  deriving DecidableEq, Repr

/-- The noise channel (R900, R916, R937). -/
structure Noise where
  enabled : Bool
  halt : Bool
  constVol : Bool
  vol : BitVec 4
  env : Envelope
  mode : Bool
  periodIndex : BitVec 4
  timer : BitVec 12
  lfsr : BitVec 15
  length : Nat
  deriving DecidableEq, Repr

/-- The delta modulation channel (R900, R917 to R920, R960 to R964). -/
structure Dmc where
  irqEnable : Bool
  loop : Bool
  rateIndex : BitVec 4
  level : BitVec 7
  sampleAddr : Word
  sampleLen : BitVec 12
  curAddr : Word
  bytesRemaining : BitVec 12
  buffer : Byte
  bufferFull : Bool
  shift : Byte
  bitsRemaining : Nat
  silence : Bool
  timer : BitVec 9
  deriving DecidableEq, Repr

/-- The frame sequencer (R900, R925, R940); `fiveStep` is `fs_mode = 1`. -/
structure FrameSeq where
  fiveStep : Bool
  irqInhibit : Bool
  cycle : Nat
  deriving DecidableEq, Repr

/-- The APU (R900). `samples` is newest first (log 6). -/
structure Apu where
  pulse1 : Pulse
  pulse2 : Pulse
  triangle : Triangle
  noise : Noise
  dmc : Dmc
  fs : FrameSeq
  frameIrq : Bool
  dmcIrq : Bool
  odd : Bool
  samples : List Rat
  samplePhase : Rat
  deriving DecidableEq, Repr

/-- The controller ports' latches (R761). -/
structure Pads where
  strobe : Bool
  shift1 : Byte
  shift2 : Byte
  index1 : BitVec 3
  index2 : BitVec 3
  deriving DecidableEq, Repr

/-- The levels the caller holds on the machine's inputs (R760, R731, R1045): the buttons of the two ports and the
external IRQ line. No step changes them (log 3). -/
structure Inputs where
  buttons1 : Byte
  buttons2 : Byte
  extIrq : Bool
  deriving DecidableEq, Repr

/-- The kind of a bus transaction (R260). -/
inductive AccessKind where
  | read
  | write
  deriving DecidableEq, Repr

/-- One instrumentation event (R260). -/
structure BusEvent where
  address : Word
  value : Byte
  kind : AccessKind
  frame : Nat
  cycle : Nat
  programCounter : Word
  snapshot : Byte × Byte
  deriving DecidableEq, Repr

/-- The whole machine (R170). `trace` is the event stream as an output trace, newest first (R261, log 6). -/
structure State where
  regs : Regs
  ctl : Control
  ram : Memory
  busLatch : Byte
  cart : Cart
  ppu : Ppu
  apu : Apu
  pads : Pads
  inputs : Inputs
  trace : List BusEvent
  deriving DecidableEq, Repr

/-- Why a step can stop with a fault. -/
inductive Fault where
  /-- Raised by `step` while the fault register is set: every step after the one that fetched an illegal opcode reports
  the same fault and changes nothing (R711). Safe: the machine is quiescent there until the caller resets it. -/
  | illegalOpcode (op : Byte) (addr : Word)
  deriving DecidableEq, Repr

/-- Why a step can be refused. -/
inductive Refusal where
  /-- Raised by an arm of `exec` whose instruction has no meaning yet; no arm does. Safe. -/
  | notModelled (mnemonic : String)
  deriving DecidableEq, Repr

/-- What a meaning answers. -/
abbrev Ans := Host.Outcome State Fault Refusal

/-- The stored flags after reset (R113 to R118, R1030). -/
def Flags.reset : Flags := { c := false, z := false, i := true, d := false, v := false, n := false }

/-- The cartridge of `State.reset`: the image of 95_test_vectors.md §5 (mapper 0, one PRG bank, CHR RAM, horizontal
mirroring) with every PRG byte $00. A program is loaded from outside (log 1). -/
def Cart.blank : Cart :=
  { prgRom := [], prgBanks := 1, chr := [], chrBanks := 0, prgRam := [], mirroring := .horizontal, mapper := .m0,
    prgSel := 0, chrSel := 0 }

/-- The background pipeline after reset (R890). -/
def BgPipe.reset : BgPipe :=
  { ntLatch := 0, atLatch := 0, ptLoLatch := 0, ptHiLatch := 0, patLo := 0, patHi := 0, attLo := 0, attHi := 0 }

/-- An empty sprite line buffer (R890). -/
def SpriteSlot.reset : SpriteSlot := { patLo := 0, patHi := 0, attr := 0, x := 0 }

/-- The sprite unit after reset (R890). -/
def Sprites.reset : Sprites :=
  { secOam := Vector.replicate 32 0xFF, count := 0, zeroHere := false, slots := Vector.replicate 8 SpriteSlot.reset }

/-- The PPU after reset (R890), keeping the given VRAM, palette RAM and OAM. -/
def Ppu.resetWith (vram : Memory) (palette : Store 6) (oam : Memory) : Ppu :=
  { ctrl := 0, mask := 0, vblank := false, sprite0Hit := false, spriteOverflow := false, oamAddr := 0, v := 0, t := 0,
    fineX := 0, w := false, readBuffer := 0, ioLatch := 0, scanline := 0, dot := 0, oddFrame := false, frame := 0,
    bg := BgPipe.reset, spr := Sprites.reset, vram := vram, palette := palette, oam := oam, fb := [] }

/-- An envelope after reset (R990). -/
def Envelope.reset : Envelope := { start := false, divider := 0, decay := 0 }

/-- A pulse channel after reset (R990). -/
def Pulse.reset : Pulse :=
  { enabled := false, duty := 0, halt := false, constVol := false, vol := 0, env := Envelope.reset, swEnable := false,
    swPeriod := 0, swNegate := false, swShift := 0, swReload := false, swDivider := 0, timerPeriod := 0, timer := 0,
    seq := 0, length := 0 }

/-- The triangle channel after reset (R990). -/
def Triangle.reset : Triangle :=
  { enabled := false, control := false, linReloadValue := 0, linCounter := 0, linReload := false, timerPeriod := 0,
    timer := 0, seq := 0, length := 0 }

/-- The noise channel after reset (R990). -/
def Noise.reset : Noise :=
  { enabled := false, halt := false, constVol := false, vol := 0, env := Envelope.reset, mode := false, periodIndex := 0,
    timer := 0, lfsr := 1, length := 0 }

/-- The DMC after reset (R990). -/
def Dmc.reset : Dmc :=
  { irqEnable := false, loop := false, rateIndex := 0, level := 0, sampleAddr := 0xC000, sampleLen := 1, curAddr := 0,
    bytesRemaining := 0, buffer := 0, bufferFull := false, shift := 0, bitsRemaining := 8, silence := true, timer := 0 }

/-- The APU after reset (R990). -/
def Apu.reset : Apu :=
  { pulse1 := Pulse.reset, pulse2 := Pulse.reset, triangle := Triangle.reset, noise := Noise.reset, dmc := Dmc.reset,
    fs := { fiveStep := false, irqInhibit := false, cycle := 0 }, frameIrq := false, dmcIrq := false, odd := false,
    samples := [], samplePhase := 0 }

/-- The controller latches after reset (R763). -/
def Pads.reset : Pads := { strobe := false, shift1 := 0, shift2 := 0, index1 := 0, index2 := 0 }

/-- The event of one of the two vector reads of a reset (R1030 step 5). -/
def BusEvent.vectorRead (a : Word) (b : Byte) (inp : Inputs) : BusEvent :=
  { address := a, value := b, kind := .read, frame := 0, cycle := 0, programCounter := 0xFFFC,
    snapshot := (inp.buttons1, inp.buttons2) }

/-- No input active (log 3). -/
def Inputs.none : Inputs := { buttons1 := 0, buttons2 := 0, extIrq := false }

/-- The machine right after power-on and reset (R1030, R1032) with the blank cartridge: its vectors read $0000. -/
def State.reset : State :=
  { regs := { a := 0, x := 0, y := 0, sp := 0xFD, pc := 0, p := Flags.reset }
    ctl := { cyclesTotal := 7, nmiPending := false, stallCycles := 0, instrPc := 0, instrCycle := 7, fault := .none,
             stepCycles := 0, stepBase := 0, lastResult := .notStepped }
    ram := []
    busLatch := 0
    cart := Cart.blank
    ppu := Ppu.resetWith [] [] []
    apu := Apu.reset
    pads := Pads.reset
    inputs := Inputs.none
    trace := [BusEvent.vectorRead 0xFFFD 0 Inputs.none, BusEvent.vectorRead 0xFFFC 0 Inputs.none] }

end Sys2Proof.Machine
end

