-- ==== Sys2Proof/Machine/Store.lean ====
section
/-! DEFINITION. Sparse memories in one canonical form (log 4): what an unlisted index reads as, reading, writing, and the
canonical form itself. -/

namespace Sys2Proof.Machine

/-- What an unlisted index reads as, in every memory: the construction value $00 (20_memory.md R211, R222, R243, R244,
R246, 61_ppu.md R880). -/
def Store.unlisted (w : Nat) : BitVec w := 0

/-- The entry at an index. -/
def Store.read {w : Nat} (m : Store w) (k : Nat) : BitVec w :=
  match m with
  | [] => Store.unlisted w
  | (j, b) :: r => if j = k then b else Store.read r k

/-- Puts an entry in front of a list, unless it is what an unlisted index reads as. -/
def Store.keep {w : Nat} (k : Nat) (b : BitVec w) (r : Store w) : Store w :=
  if b = Store.unlisted w then r else (k, b) :: r

/-- Writes an entry, keeping the canonical form. -/
def Store.write {w : Nat} (m : Store w) (k : Nat) (b : BitVec w) : Store w :=
  match m with
  | [] => Store.keep k b []
  | (j, c) :: r =>
    if k < j then Store.keep k b ((j, c) :: r)
    else if k = j then Store.keep k b r
    else (j, c) :: Store.write r k b

/-- The memory that holds a byte string from index `k` on. -/
def Store.ofBytes (bs : List Byte) (k : Nat) : Memory :=
  match bs with
  | [] => []
  | b :: r => Store.keep k b (Store.ofBytes r (k + 1))

/-- The canonical form: indexes strictly rising, no entry equal to what an unlisted index reads as. -/
abbrev Store.Wf {w : Nat} (m : Store w) : Prop :=
  m.Pairwise (fun e f => e.1 < f.1) ∧ ∀ e ∈ m, e.2 ≠ Store.unlisted w

/-- The canonical form of a byte memory, as a test. -/
def Memory.wf (m : Memory) : Bool := decide (Store.Wf m)

/-- Every listed index is below `size`. -/
abbrev Store.Within {w : Nat} (m : Store w) (size : Nat) : Prop := ∀ e ∈ m, e.1 < size

end Sys2Proof.Machine
end

