-- ==== Sys2Proof/Machine/Cartridge.lean ====
section
/-! DEFINITION. The cartridge: image, load and its errors, the three mappers, CPU reads and writes (20_memory.md R220 to
R234). -/

namespace Sys2Proof.Machine

/-- Bytes in a PRG bank (R220). -/
def prgBankSize : Nat := 16384

/-- Bytes in a CHR bank, and in CHR RAM (R220). -/
def chrBankSize : Nat := 8192

/-- Whether `chr` is RAM (R220, R222). -/
def Cart.chrIsRam (c : Cart) : Bool := c.chrBanks == 0

/-- Size of `chr` in bytes (R222). -/
def Cart.chrSize (c : Cart) : Nat := if c.chrIsRam then chrBankSize else c.chrBanks * chrBankSize

/-- Size of `prg_rom` in bytes (R220). -/
def Cart.prgSize (c : Cart) : Nat := c.prgBanks * prgBankSize

/-- `map_cpu` for a CPU address in $8000-$FFFF (R225, R230, R231, R233). -/
def Cart.mapCpu (c : Cart) (a : Nat) : Nat :=
  match c.mapper with
  | .m0 | .m3 => (a - 0x8000) % c.prgSize
  | .m2 =>
    if a < 0xC000 then c.prgSel * prgBankSize + (a - 0x8000)
    else (c.prgBanks - 1) * prgBankSize + (a - 0xC000)

/-- `map_ppu` for a PPU address in $0000-$1FFF (R225, R230, R231, R233). -/
def Cart.mapPpu (c : Cart) (a : Nat) : Nat :=
  match c.mapper with
  | .m0 | .m2 => a
  | .m3 => c.chrSel * chrBankSize + a

/-- `on_cpu_write` for any address in $8000-$FFFF; bank numbers wrap (R228, R230, R232, R233). -/
def Cart.onCpuWrite (c : Cart) (v : Byte) : Cart :=
  match c.mapper with
  | .m0 => c
  | .m2 => { c with prgSel := v.toNat % c.prgBanks }
  | .m3 => { c with chrSel := v.toNat % c.chrBanks }

/-- `CartRead(a)` for a in $4020-$FFFF, with the bus latch for the open range (R226). -/
def Cart.read (c : Cart) (latch : Byte) (a : Nat) : Byte :=
  if a < 0x6000 then latch
  else if a < 0x8000 then Store.read c.prgRam (a - 0x6000)
  else Store.read c.prgRom (c.mapCpu a)

/-- `CartWrite(a, v)` for a in $4020-$FFFF (R227): ROM is never written. -/
def Cart.write (c : Cart) (a : Nat) (v : Byte) : Cart :=
  if a < 0x6000 then c
  else if a < 0x8000 then { c with prgRam := Store.write c.prgRam (a - 0x6000) v }
  else c.onCpuWrite v

/-- A write into CHR, which changes it only if it is RAM (R241). -/
def Cart.writeChr (c : Cart) (a : Nat) (v : Byte) : Cart :=
  if c.chrIsRam then { c with chr := Store.write c.chr (c.mapPpu a) v } else c

/-- The mapper's part of a reset: bank registers to 0, everything else kept (R234). -/
def Cart.reset (c : Cart) : Cart := { c with prgSel := 0, chrSel := 0 }

/-- The VRAM index of a PPU nametable address in $2000-$3EFF (R223). -/
def vramIndex (m : Mirroring) (a : Nat) : Nat :=
  let t := (a - 0x2000) % 0x1000
  match m with
  | .horizontal => t / 0x800 % 2 * 0x400 + t % 0x400
  | .vertical => t / 0x400 % 2 * 0x400 + t % 0x400

/-- The palette entry of a PPU address in $3F00-$3FFF (R242): $10, $14, $18 and $1C select $00, $04, $08 and $0C. -/
def paletteIndex (a : Nat) : Nat :=
  let k := a % 0x20
  if k = 0x10 ∨ k = 0x14 ∨ k = 0x18 ∨ k = 0x1C then k - 0x10 else k

/-- Why a load fails (R221). -/
inductive LoadError where
  | badMagic
  | unsupportedTrainer
  | unsupportedFourScreen
  | badSize
  | truncated
  | unsupportedMapper (id : Nat)
  deriving DecidableEq, Repr

/-- The mapper of an id, if it is one of `MAPPERS` (R8, R221). -/
def mapperOf (id : Nat) : Option Mapper :=
  match id with
  | 0 => some .m0
  | 2 => some .m2
  | 3 => some .m3
  | _ => none

/-- The bank counts a mapper admits (R230, R231, R233). -/
def Mapper.admits (m : Mapper) (prg chr : Nat) : Bool :=
  match m with
  | .m0 => (prg == 1 || prg == 2) && decide (chr ≤ 1)
  | .m2 => decide (1 ≤ prg ∧ prg ≤ 255) && decide (chr ≤ 1)
  | .m3 => (prg == 1 || prg == 2) && decide (1 ≤ chr ∧ chr ≤ 255)

/-- Byte `k` of an image. -/
def imageByte (img : List Byte) (k : Nat) : Byte := img.getD k 0

/-- The mapper id of an image's flag bytes (R220, R221). -/
def imageMapperId (img : List Byte) : Nat :=
  ((imageByte img 7 &&& 0xF0) ||| (imageByte img 6 >>> 4)).toNat

/-- The cartridge an accepted image makes (R220, R222). -/
def cartOfImage (img : List Byte) (m : Mapper) (prg chr : Nat) : Cart :=
  let body := img.drop 16
  { prgRom := Store.ofBytes (body.take (prg * prgBankSize)) 0
    prgBanks := prg
    chr := Store.ofBytes ((body.drop (prg * prgBankSize)).take (chr * chrBankSize)) 0
    chrBanks := chr
    prgRam := []
    mirroring := if bitAt (imageByte img 6) 0 then .vertical else .horizontal
    mapper := m
    prgSel := 0
    chrSel := 0 }

/-- Loads an image or names the error (R220, R221). When several errors hold, the first in R221's order is named (log 7). -/
def loadCart (img : List Byte) : Except LoadError Cart :=
  let prg := (imageByte img 4).toNat
  let chr := (imageByte img 5).toNat
  if img.length < 16 ∨ img.take 4 ≠ [0x4E, 0x45, 0x53, 0x1A] then .error .badMagic
  else if bitAt (imageByte img 6) 2 then .error .unsupportedTrainer
  else if bitAt (imageByte img 6) 3 then .error .unsupportedFourScreen
  else if prg = 0 then .error .badSize
  else if img.length < 16 + prg * prgBankSize + chr * chrBankSize then .error .truncated
  else
    match mapperOf (imageMapperId img) with
    | none => .error (.unsupportedMapper (imageMapperId img))
    | some m => if m.admits prg chr then .ok (cartOfImage img m prg chr) else .error .badSize

end Sys2Proof.Machine
end

