-- ==== Sys2Proof/Machine/Apu.lean ====
section
/-! DEFINITION. The sound unit: registers, channel units, frame sequencer, delta modulation, mixer and sample stream
(62_apu.md R901 to R980). The DMC's memory reader, which uses the CPU bus, stands with the bus. -/

namespace Sys2Proof.Machine

/-! ### Tables -/

/-- `LENGTH` (R930). -/
def lengthTable : List Nat :=
  [10, 254, 20, 2, 40, 4, 80, 6, 160, 8, 60, 10, 14, 12, 26, 14, 12, 16, 24, 18, 48, 20, 96, 22, 192, 24, 72, 26, 16, 28,
    32, 30]

/-- `DUTY` (R932). -/
def dutyTable (duty : BitVec 2) : List Nat :=
  match duty.toNat with
  | 0 => [0, 1, 0, 0, 0, 0, 0, 0]
  | 1 => [0, 1, 1, 0, 0, 0, 0, 0]
  | 2 => [0, 1, 1, 1, 1, 0, 0, 0]
  | _ => [1, 0, 0, 1, 1, 1, 1, 1]

/-- `TRI` (R936). -/
def triTable : List Nat :=
  [15, 14, 13, 12, 11, 10, 9, 8, 7, 6, 5, 4, 3, 2, 1, 0, 0, 1, 2, 3, 4, 5, 6, 7, 8, 9, 10, 11, 12, 13, 14, 15]

/-- `NOISE_PERIOD` (R937). -/
def noiseTable : List Nat := [4, 8, 16, 32, 64, 96, 128, 160, 202, 254, 380, 508, 762, 1016, 2034, 4068]

/-- `DMC_RATE` (R960). -/
def dmcTable : List Nat := [428, 380, 340, 320, 286, 254, 226, 214, 190, 160, 142, 128, 106, 84, 72, 54]

/-! ### Registers -/

/-- A length load of `d[7:3]`: ignored while the channel is not enabled (R913, R915, R916, R930). -/
def loadLength (enabled : Bool) (old : Nat) (d : Byte) : Nat :=
  if enabled then tableAt lengthTable (field d 3 5).toNat else old

/-- The length after a $4015 write: a 0 bit clears it (R922). -/
def lengthEnable (on : Bool) (old : Nat) : Nat := if on then old else 0

/-- Pulse control, $4000 and $4004 (R910). -/
def Pulse.writeControl (p : Pulse) (d : Byte) : Pulse :=
  { p with duty := field d 6 2, halt := bitAt d 5, constVol := bitAt d 4, vol := field d 0 4 }

/-- Pulse sweep, $4001 and $4005 (R911). -/
def Pulse.writeSweep (p : Pulse) (d : Byte) : Pulse :=
  { p with swEnable := bitAt d 7, swPeriod := field d 4 3, swNegate := bitAt d 3, swShift := field d 0 3, swReload := true }

/-- Pulse timer low, $4002 and $4006 (R912). -/
def Pulse.writeTimer (p : Pulse) (d : Byte) : Pulse := { p with timerPeriod := putField p.timerPeriod 0 d }

/-- Pulse length and timer high, $4003 and $4007 (R913). -/
def Pulse.writeLength (p : Pulse) (d : Byte) : Pulse :=
  { p with
    timerPeriod := putField p.timerPeriod 8 (field d 0 3)
    length := loadLength p.enabled p.length d
    seq := 0
    env := { p.env with start := true } }

/-- Pulse enable bit of $4015 (R922). -/
def Pulse.enable (p : Pulse) (on : Bool) : Pulse := { p with enabled := on, length := lengthEnable on p.length }

/-- Triangle linear counter, $4008 (R914). -/
def Triangle.writeLinear (t : Triangle) (d : Byte) : Triangle :=
  { t with control := bitAt d 7, linReloadValue := field d 0 7 }

/-- Triangle timer low, $400A (R915). -/
def Triangle.writeTimer (t : Triangle) (d : Byte) : Triangle := { t with timerPeriod := putField t.timerPeriod 0 d }

/-- Triangle length and timer high, $400B (R915). -/
def Triangle.writeLength (t : Triangle) (d : Byte) : Triangle :=
  { t with
    timerPeriod := putField t.timerPeriod 8 (field d 0 3)
    length := loadLength t.enabled t.length d
    linReload := true }

/-- Triangle enable bit of $4015 (R922). -/
def Triangle.enable (t : Triangle) (on : Bool) : Triangle := { t with enabled := on, length := lengthEnable on t.length }

/-- Noise control, $400C (R916). -/
def Noise.writeControl (n : Noise) (d : Byte) : Noise :=
  { n with halt := bitAt d 5, constVol := bitAt d 4, vol := field d 0 4 }

/-- Noise mode and period, $400E (R916). -/
def Noise.writePeriod (n : Noise) (d : Byte) : Noise := { n with mode := bitAt d 7, periodIndex := field d 0 4 }

/-- Noise length, $400F (R916). -/
def Noise.writeLength (n : Noise) (d : Byte) : Noise :=
  { n with length := loadLength n.enabled n.length d, env := { n.env with start := true } }

/-- Noise enable bit of $4015 (R922). -/
def Noise.enable (n : Noise) (on : Bool) : Noise := { n with enabled := on, length := lengthEnable on n.length }

/-- DMC control, $4010, but for the interrupt flag (R917). -/
def Dmc.writeControl (m : Dmc) (d : Byte) : Dmc :=
  { m with irqEnable := bitAt d 7, loop := bitAt d 6, rateIndex := field d 0 4 }

/-- DMC direct load, $4011 (R918). -/
def Dmc.writeLevel (m : Dmc) (d : Byte) : Dmc := { m with level := field d 0 7 }

/-- DMC sample address, $4012: `$C000 + d * 64` (R919). -/
def Dmc.writeAddr (m : Dmc) (d : Byte) : Dmc := { m with sampleAddr := 0xC000 + d.setWidth 16 * 64 }

/-- DMC sample length, $4013: `d * 16 + 1` (R920). -/
def Dmc.writeLen (m : Dmc) (d : Byte) : Dmc := { m with sampleLen := d.setWidth 12 * 16 + 1 }

/-- DMC restart (R964). -/
def Dmc.restart (m : Dmc) : Dmc := { m with curAddr := m.sampleAddr, bytesRemaining := m.sampleLen }

/-- DMC enable bit of $4015 (R922). -/
def Dmc.enable (m : Dmc) (on : Bool) : Dmc :=
  if !on then { m with bytesRemaining := 0 } else if m.bytesRemaining = 0 then m.restart else m

/-- The byte a read of $4015 returns; bit 5 comes from the data-bus latch (R921). -/
def Apu.status (a : Apu) (latch : Byte) : Byte :=
  BitVec.ofBool a.dmcIrq ++ BitVec.ofBool a.frameIrq ++ BitVec.ofBool (bitAt latch 5) ++
    BitVec.ofBool (decide (0 < a.dmc.bytesRemaining.toNat)) ++ BitVec.ofBool (decide (0 < a.noise.length)) ++
    BitVec.ofBool (decide (0 < a.triangle.length)) ++ BitVec.ofBool (decide (0 < a.pulse2.length)) ++
    BitVec.ofBool (decide (0 < a.pulse1.length))

/-- The side effect of a read of $4015 (R921). -/
def Apu.afterStatusRead (a : Apu) : Apu := { a with frameIrq := false }

/-! ### Channel units -/

/-- An envelope's quarter-frame clock, with the channel's volume and loop flag (R931). -/
def Envelope.clock (e : Envelope) (vol : BitVec 4) (loop : Bool) : Envelope :=
  if e.start then { start := false, decay := 15, divider := vol }
  else if e.divider = 0 then
    { e with divider := vol, decay := if e.decay ≠ 0 then e.decay - 1 else if loop then 15 else 0 }
  else { e with divider := e.divider - 1 }

/-- The envelope volume (R931). -/
def envVolume (constVol : Bool) (vol : BitVec 4) (e : Envelope) : Nat :=
  if constVol then vol.toNat else e.decay.toNat

/-- A length counter's half-frame clock (R930). -/
def lengthClock (length : Nat) (halt : Bool) : Nat := if halt then length else length - 1

/-- The sweep's target period; pulse 1 subtracts one more (R933). -/
def Pulse.target (p : Pulse) (isPulse1 : Bool) : Int :=
  let change : Int := ((p.timerPeriod >>> p.swShift.toNat).toNat : Int)
  let per : Int := (p.timerPeriod.toNat : Int)
  if p.swNegate then (if isPulse1 then per - change - 1 else per - change) else per + change

/-- Whether the sweep mutes the channel (R933). -/
def Pulse.muted (p : Pulse) (isPulse1 : Bool) : Bool :=
  decide (p.timerPeriod.toNat < 8) || decide (0x7FF < p.target isPulse1)

/-- The sweep's new period on a half-frame clock (R933). -/
def Pulse.sweptPeriod (p : Pulse) (isPulse1 : Bool) : BitVec 11 :=
  if p.swDivider = 0 ∧ p.swEnable ∧ p.swShift ≠ 0 ∧ ¬ p.muted isPulse1 then BitVec.ofInt 11 (p.target isPulse1)
  else p.timerPeriod

/-- The sweep's half-frame clock (R933). -/
def Pulse.sweepClock (p : Pulse) (isPulse1 : Bool) : Pulse :=
  if p.swDivider = 0 ∨ p.swReload then
    { p with timerPeriod := p.sweptPeriod isPulse1, swDivider := p.swPeriod, swReload := false }
  else { p with timerPeriod := p.sweptPeriod isPulse1, swDivider := p.swDivider - 1 }

/-- A pulse channel's quarter-frame clock (R942). -/
def Pulse.quarter (p : Pulse) : Pulse := { p with env := p.env.clock p.vol p.halt }

/-- A pulse channel's half-frame clock (R942). -/
def Pulse.half (p : Pulse) (isPulse1 : Bool) : Pulse :=
  { p with length := lengthClock p.length p.halt }.sweepClock isPulse1

/-- A pulse channel's timer step (R932). -/
def Pulse.timerStep (p : Pulse) : Pulse :=
  if p.timer = 0 then { p with timer := p.timerPeriod, seq := p.seq + 1 } else { p with timer := p.timer - 1 }

/-- A pulse channel's output, 0 to 15 (R934). -/
def Pulse.output (p : Pulse) (isPulse1 : Bool) : Nat :=
  if p.length = 0 ∨ p.muted isPulse1 ∨ tableAt (dutyTable p.duty) p.seq.toNat = 0 then 0
  else envVolume p.constVol p.vol p.env

/-- The triangle's quarter-frame clock (R935). -/
def Triangle.quarter (t : Triangle) : Triangle :=
  { t with
    linCounter :=
      if t.linReload then t.linReloadValue else if t.linCounter ≠ 0 then t.linCounter - 1 else t.linCounter
    linReload := t.linReload && t.control }

/-- The triangle's half-frame clock (R930, R942). -/
def Triangle.half (t : Triangle) : Triangle := { t with length := lengthClock t.length t.control }

/-- The triangle's timer step (R935). -/
def Triangle.timerStep (t : Triangle) : Triangle :=
  if t.timer = 0 then
    { t with timer := t.timerPeriod, seq := if t.linCounter ≠ 0 ∧ 0 < t.length then t.seq + 1 else t.seq }
  else { t with timer := t.timer - 1 }

/-- The triangle's output, 0 to 15 (R936). -/
def Triangle.output (t : Triangle) : Nat := tableAt triTable t.seq.toNat

/-- One clock of the noise shift register (R937). -/
def lfsrNext (mode : Bool) (l : BitVec 15) : BitVec 15 :=
  (l >>> 1) ||| ((BitVec.ofBool (bitAt l 0 ^^ (if mode then bitAt l 6 else bitAt l 1))).setWidth 15 <<< 14)

/-- The noise channel's quarter-frame clock (R942). -/
def Noise.quarter (n : Noise) : Noise := { n with env := n.env.clock n.vol n.halt }

/-- The noise channel's half-frame clock (R942). -/
def Noise.half (n : Noise) : Noise := { n with length := lengthClock n.length n.halt }

/-- The noise channel's timer step (R937). -/
def Noise.timerStep (n : Noise) : Noise :=
  if n.timer = 0 then
    { n with
      timer := BitVec.ofNat 12 (tableAt noiseTable n.periodIndex.toNat - 1)
      lfsr := lfsrNext n.mode n.lfsr }
  else { n with timer := n.timer - 1 }

/-- The noise channel's output, 0 to 15 (R938). -/
def Noise.output (n : Noise) : Nat :=
  if n.length = 0 ∨ bitAt n.lfsr 0 then 0 else envVolume n.constVol n.vol n.env

/-! ### Frame sequencer -/

/-- A quarter-frame clock (R942). -/
def Apu.quarterFrame (a : Apu) : Apu :=
  { a with pulse1 := a.pulse1.quarter, pulse2 := a.pulse2.quarter, noise := a.noise.quarter, triangle := a.triangle.quarter }

/-- A half-frame clock (R942). -/
def Apu.halfFrame (a : Apu) : Apu :=
  { a with pulse1 := a.pulse1.half true, pulse2 := a.pulse2.half false, noise := a.noise.half, triangle := a.triangle.half }

/-- The frame sequencer with a given count. -/
def Apu.setFsCycle (a : Apu) (k : Nat) : Apu := { a with fs := { a.fs with cycle := k } }

/-- The table's action in 4-step mode, at count k (R940, R941). The count returns to 0 in the tick that reaches 29829, as R940 says;
decision D29 speaks of a restart after 29830 (log 16). -/
def Apu.fourStep (a : Apu) (k : Nat) : Apu :=
  if k = 7457 ∨ k = 22371 then a.quarterFrame
  else if k = 14913 then a.quarterFrame.halfFrame
  else if k = 29829 then
    { a.quarterFrame.halfFrame with frameIrq := a.frameIrq || !a.fs.irqInhibit }.setFsCycle 0
  else a

/-- The table's action in 5-step mode, at count k (R940). The count returns to 0 in the tick that reaches 37281, as R940 says;
decision D29 speaks of a restart after 37282 (log 16). -/
def Apu.fiveStep (a : Apu) (k : Nat) : Apu :=
  if k = 7457 ∨ k = 22371 then a.quarterFrame
  else if k = 14913 then a.quarterFrame.halfFrame
  else if k = 37281 then a.quarterFrame.halfFrame.setFsCycle 0
  else a

/-- The frame sequencer step (R940). -/
def Apu.frameStep (a : Apu) : Apu :=
  let k := a.fs.cycle + 1
  if a.fs.fiveStep then (a.setFsCycle k).fiveStep k else (a.setFsCycle k).fourStep k

/-- The $4017 write (R925). -/
def Apu.writeFrameCounter (a : Apu) (d : Byte) : Apu :=
  let b :=
    { a with
      fs := { fiveStep := bitAt d 7, irqInhibit := bitAt d 6, cycle := 0 }
      frameIrq := a.frameIrq && !bitAt d 6 }
  if bitAt d 7 then b.quarterFrame.halfFrame else b

/-- The $4015 write (R922). -/
def Apu.writeEnable (a : Apu) (d : Byte) : Apu :=
  { a with
    pulse1 := a.pulse1.enable (bitAt d 0)
    pulse2 := a.pulse2.enable (bitAt d 1)
    triangle := a.triangle.enable (bitAt d 2)
    noise := a.noise.enable (bitAt d 3)
    dmc := a.dmc.enable (bitAt d 4)
    dmcIrq := false }

/-- A write of d to $4000 + r, r from $00 to $13 (R910 to R920, R923, R924); $4009 and $400D are not connected. -/
def Apu.writeReg (a : Apu) (r : Nat) (d : Byte) : Apu :=
  match r with
  | 0x00 => { a with pulse1 := a.pulse1.writeControl d }
  | 0x01 => { a with pulse1 := a.pulse1.writeSweep d }
  | 0x02 => { a with pulse1 := a.pulse1.writeTimer d }
  | 0x03 => { a with pulse1 := a.pulse1.writeLength d }
  | 0x04 => { a with pulse2 := a.pulse2.writeControl d }
  | 0x05 => { a with pulse2 := a.pulse2.writeSweep d }
  | 0x06 => { a with pulse2 := a.pulse2.writeTimer d }
  | 0x07 => { a with pulse2 := a.pulse2.writeLength d }
  | 0x08 => { a with triangle := a.triangle.writeLinear d }
  | 0x0A => { a with triangle := a.triangle.writeTimer d }
  | 0x0B => { a with triangle := a.triangle.writeLength d }
  | 0x0C => { a with noise := a.noise.writeControl d }
  | 0x0E => { a with noise := a.noise.writePeriod d }
  | 0x0F => { a with noise := a.noise.writeLength d }
  | 0x10 => { a with dmc := a.dmc.writeControl d, dmcIrq := a.dmcIrq && bitAt d 7 }
  | 0x11 => { a with dmc := a.dmc.writeLevel d }
  | 0x12 => { a with dmc := a.dmc.writeAddr d }
  | 0x13 => { a with dmc := a.dmc.writeLen d }
  | _ => a

/-! ### Delta modulation channel -/

/-- The level after an output clock (R961). -/
def Dmc.nextLevel (m : Dmc) : BitVec 7 :=
  if m.silence then m.level
  else if bitAt m.shift 0 then (if m.level.toNat ≤ 125 then m.level + 2 else m.level)
  else (if 2 ≤ m.level.toNat then m.level - 2 else m.level)

/-- One clock of the output unit (R961). -/
def Dmc.clockOutput (m : Dmc) : Dmc :=
  if m.bitsRemaining - 1 = 0 then
    if m.bufferFull then
      { m with level := m.nextLevel, bitsRemaining := 8, shift := m.buffer, bufferFull := false, silence := false }
    else { m with level := m.nextLevel, bitsRemaining := 8, shift := m.shift >>> 1, silence := true }
  else { m with level := m.nextLevel, bitsRemaining := m.bitsRemaining - 1, shift := m.shift >>> 1 }

/-- The DMC's timer step (R961). -/
def Dmc.timerStep (m : Dmc) : Dmc :=
  if m.timer = 0 then { m with timer := BitVec.ofNat 9 (tableAt dmcTable m.rateIndex.toNat - 1) }.clockOutput
  else { m with timer := m.timer - 1 }

/-- Whether the memory reader fetches a byte now (R962). -/
def Dmc.wantsByte (m : Dmc) : Bool := !m.bufferFull && m.bytesRemaining != 0

/-- The DMC with a fetched byte in its buffer and the address advanced (R962). -/
def Dmc.takeByte (m : Dmc) (b : Byte) : Dmc :=
  { m with
    buffer := b
    bufferFull := true
    curAddr := if m.curAddr = 0xFFFF then 0x8000 else m.curAddr + 1
    bytesRemaining := m.bytesRemaining - 1 }

/-- The APU after the memory reader took the byte b: the last byte restarts a looping sample, else raises the interrupt if
enabled (R962, R963). -/
def Apu.takeByte (a : Apu) (b : Byte) : Apu :=
  let m := a.dmc.takeByte b
  if m.bytesRemaining = 0 then
    if m.loop then { a with dmc := m.restart } else { a with dmc := m, dmcIrq := a.dmcIrq || m.irqEnable }
  else { a with dmc := m }

/-! ### Mixer and samples -/

/-- The pulse part of the mixer (R970). -/
def mixPulse (p1 p2 : Nat) : Rat :=
  if p1 + p2 = 0 then 0 else (9588 / 100 : Rat) / (8128 / ((p1 + p2 : Nat) : Rat) + 100)

/-- The triangle, noise and DMC part of the mixer (R970). -/
def mixTnd (t n d : Nat) : Rat :=
  if t = 0 ∧ n = 0 ∧ d = 0 then 0
  else
    (15979 / 100 : Rat) / (1 / ((t : Rat) / 8227 + (n : Rat) / 12241 + (d : Rat) / 22638) + 100)

/-- The mixer, in exact arithmetic (R970, R971). -/
def mix (p1 p2 t n d : Nat) : Rat := mixPulse p1 p2 + mixTnd t n d

/-- The mixer's output for the channels as they stand (R970). -/
def Apu.output (a : Apu) : Rat :=
  mix (a.pulse1.output true) (a.pulse2.output false) a.triangle.output a.noise.output a.dmc.level.toNat

/-- The sample step (R980); `samples` is newest first (log 6). -/
def Apu.sampleStep (a : Apu) : Apu :=
  { a with
    samples := if Config.samplePeriod ≤ a.samplePhase + 1 then a.output :: a.samples else a.samples
    samplePhase :=
      if Config.samplePeriod ≤ a.samplePhase + 1 then a.samplePhase + 1 - Config.samplePeriod else a.samplePhase + 1 }

/-! ### The tick, but for the memory reader -/

/-- The pulse timer steps of every second tick (R901 step 3). -/
def Apu.pulseSteps (a : Apu) : Apu :=
  if a.odd then { a with pulse1 := a.pulse1.timerStep, pulse2 := a.pulse2.timerStep } else a

/-- Steps 1 to 5 of R901, up to the DMC timer. -/
def Apu.tickUnits (a : Apu) : Apu :=
  let b := a.frameStep
  let c := { b with triangle := b.triangle.timerStep }.pulseSteps
  { c with noise := c.noise.timerStep, dmc := c.dmc.timerStep }

/-- Steps 6 and 7 of R901. -/
def Apu.tickEnd (a : Apu) : Apu := { a.sampleStep with odd := !a.odd }

end Sys2Proof.Machine
end

