-- ==== Sys2Proof/Machine/Controllers.lean ====
section
/-! DEFINITION. The controller ports (60_exceptions.md R760 to R763). -/

namespace Sys2Proof.Machine

/-- A write of v to $4016 (R761). -/
def Pads.writeStrobe (p : Pads) (inp : Inputs) (v : Byte) : Pads :=
  if bitAt v 0 then { strobe := true, shift1 := inp.buttons1, shift2 := inp.buttons2, index1 := 0, index2 := 0 }
  else { p with strobe := false }

/-- What a port read returns: `$40 | shift[index]` (R762). -/
def padByte (shift : Byte) (index : BitVec 3) : Byte := 0x40 ||| (BitVec.ofBool (bitAt shift index.toNat)).setWidth 8

/-- A read of $4016: while the strobe is 1 the port is reloaded first and stays at the A button (R761, R762). -/
def Pads.read1 (p : Pads) (inp : Inputs) : Byte × Pads :=
  if p.strobe then (padByte inp.buttons1 0, { p with shift1 := inp.buttons1, index1 := 0 })
  else (padByte p.shift1 p.index1, { p with index1 := p.index1 + 1 })

/-- A read of $4017 (R761, R762). -/
def Pads.read2 (p : Pads) (inp : Inputs) : Byte × Pads :=
  if p.strobe then (padByte inp.buttons2 0, { p with shift2 := inp.buttons2, index2 := 0 })
  else (padByte p.shift2 p.index2, { p with index2 := p.index2 + 1 })

end Sys2Proof.Machine
end

