-- ==== Sys2Proof/Machine/Flags.lean ====
section
/-! DEFINITION. The status register and every flag computation (00_scope.md R16; 10_state.md R110 to R118; 42_arithmetic.md
R500, R513; 43_logic_shift.md). -/

namespace Sys2Proof.Machine

/-- `SetNZ(v)` (R16). -/
def Flags.setNZ (p : Flags) (v : Byte) : Flags := { p with z := v == 0, n := bitAt v 7 }

/-- `P.C <- b`. -/
def Flags.setC (p : Flags) (b : Bool) : Flags := { p with c := b }

/-- `P.V <- b`. -/
def Flags.setV (p : Flags) (b : Bool) : Flags := { p with v := b }

/-- `P.I <- b`. -/
def Flags.setI (p : Flags) (b : Bool) : Flags := { p with i := b }

/-- `P.D <- b`. -/
def Flags.setD (p : Flags) (b : Bool) : Flags := { p with d := b }

/-- `PushedP(b)`: `N ++ V ++ 1 ++ b ++ D ++ I ++ Z ++ C` (R111). -/
def Flags.pushed (p : Flags) (b : Bool) : Byte :=
  BitVec.ofBool p.n ++ BitVec.ofBool p.v ++ BitVec.ofBool true ++ BitVec.ofBool b ++ BitVec.ofBool p.d ++
    BitVec.ofBool p.i ++ BitVec.ofBool p.z ++ BitVec.ofBool p.c

/-- `LoadP(v)`: bits 5 and 4 are discarded (R112). -/
def Flags.ofByte (v : Byte) : Flags :=
  { c := bitAt v 0, z := bitAt v 1, i := bitAt v 2, d := bitAt v 3, v := bitAt v 6, n := bitAt v 7 }

/-- `AddC`'s byte result: `u8(a + m + c)` (R500). -/
def addByte (a m : Byte) (c : Bool) : Byte := BitVec.ofNat 8 (a.toNat + m.toNat + boolNat c)

/-- `AddC`'s carry: the exact sum is above 255 (R500). -/
def addCarry (a m : Byte) (c : Bool) : Bool := decide (255 < a.toNat + m.toNat + boolNat c)

/-- `AddC`'s overflow: `((~(a ^ m)) & (a ^ r))[7]` (R500). -/
def addOverflow (a m : Byte) (c : Bool) : Bool :=
  bitAt (~~~(a ^^^ m) &&& (a ^^^ addByte a m c)) 7

/-- The flags ADC and SBC leave: C, V, then Z and N from the result (R501, R502); D takes no part (R512). -/
def Flags.afterAdd (p : Flags) (a m : Byte) : Flags :=
  (((p.setC (addCarry a m p.c)).setV (addOverflow a m p.c)).setNZ (addByte a m p.c))

/-- `Compare(r, m)`: C is `r >= m` unsigned, Z is equality, N is bit 7 of `u8(r - m)`; V is kept (R513). -/
def Flags.compare (p : Flags) (r m : Byte) : Flags :=
  { p with c := decide (m.toNat ≤ r.toNat), z := r == m, n := bitAt (r - m) 7 }

/-- BIT: Z from `A & M`, N and V from bits 7 and 6 of the operand (R554). -/
def Flags.bitTest (p : Flags) (a m : Byte) : Flags :=
  { p with z := (a &&& m) == 0, n := bitAt m 7, v := bitAt m 6 }

/-- ASL's result (R555). -/
def aslByte (m : Byte) : Byte := m <<< 1

/-- LSR's result (R556). -/
def lsrByte (m : Byte) : Byte := m >>> 1

/-- ROL's result, with the old carry in bit 0 (R557). -/
def rolByte (c : Bool) (m : Byte) : Byte := (m <<< 1) ||| (BitVec.ofBool c).setWidth 8

/-- ROR's result, with the old carry in bit 7 (R558). -/
def rorByte (c : Bool) (m : Byte) : Byte := (m >>> 1) ||| ((BitVec.ofBool c).setWidth 8 <<< 7)

/-- The flags a shift or rotate leaves: C is the bit shifted out, Z and N from the result (R555 to R558). -/
def Flags.afterShift (p : Flags) (out : Bool) (r : Byte) : Flags := (p.setC out).setNZ r

end Sys2Proof.Machine
end

