-- ==== Sys2Proof/Machine/Ppu.lean ====
section
/-! DEFINITION. The picture unit's address space and its eight CPU-visible registers (20_memory.md R240 to R246;
61_ppu.md R801, R810 to R820, R851 to R854). -/

namespace Sys2Proof.Machine

/-- `PpuRead(a)` for a 14-bit address (R240, R241). -/
def ppuRead (c : Cart) (p : Ppu) (a : BitVec 14) : Byte :=
  let k := a.toNat
  if k < 0x2000 then Store.read c.chr (c.mapPpu k)
  else if k < 0x3F00 then Store.read p.vram (vramIndex c.mirroring k)
  else (Store.read p.palette (paletteIndex k)).setWidth 8

/-- `PpuWrite(a, v)` (R241, R242): CHR changes only if it is RAM, palette entries keep six bits. -/
def ppuWrite (c : Cart) (p : Ppu) (a : BitVec 14) (v : Byte) : Cart × Ppu :=
  let k := a.toNat
  if k < 0x2000 then (c.writeChr k v, p)
  else if k < 0x3F00 then (c, { p with vram := Store.write p.vram (vramIndex c.mirroring k) v })
  else (c, { p with palette := Store.write p.palette (paletteIndex k) (v.setWidth 6) })

/-- `rendering`: background or sprites shown (R801). -/
def Ppu.rendering (p : Ppu) : Bool := bitAt p.mask 3 || bitAt p.mask 4

/-- A render line: a visible line or the pre-render line (R801). -/
def Ppu.renderLine (p : Ppu) : Bool := decide (p.scanline < 240) || p.scanline == 261

/-- The NMI output `PPUSTATUS.vblank AND PPUCTRL.nmi_enable` (60_exceptions.md R730). -/
def Ppu.nmiOut (p : Ppu) : Bool := p.vblank && bitAt p.ctrl 7

/-- `a = v & $3FFF` (R240, R817). -/
def Ppu.dataAddr (p : Ppu) : BitVec 14 := p.v.setWidth 14

/-- The PPUDATA increment: `v <- (v + inc) & $7FFF` (R817). -/
def Ppu.bumpV (p : Ppu) : Ppu := { p with v := p.v + (if bitAt p.ctrl 2 then 32 else 1) }

/-- The byte an OAM write stores: bits 4-2 of an attribute byte are not implemented (20_memory.md R244). -/
def oamMask (a d : Byte) : Byte := if a &&& 3 = 2 then d &&& 0xE3 else d

/-- A write of d to OAMDATA (R814). -/
def Ppu.writeOam (p : Ppu) (d : Byte) : Ppu :=
  { p with oam := Store.write p.oam p.oamAddr.toNat (oamMask p.oamAddr d), oamAddr := p.oamAddr + 1 }

/-- The byte PPUSTATUS returns (R812). -/
def Ppu.status (p : Ppu) : Byte :=
  BitVec.ofBool p.vblank ++ BitVec.ofBool p.sprite0Hit ++ BitVec.ofBool p.spriteOverflow ++ field p.ioLatch 0 5

/-- The palette byte a PPUDATA read returns: `io_latch[7:6] ++ c`, c ANDed with $30 under greyscale (R817). -/
def Ppu.paletteByte (c : Cart) (p : Ppu) : Byte :=
  let e : BitVec 6 := (ppuRead c p p.dataAddr).setWidth 6
  field p.ioLatch 6 2 ++ (if bitAt p.mask 0 then e &&& 0x30 else e)

/-- A PPUDATA read: the byte returned and the PPU after it, but for `io_latch` (R817). -/
def Ppu.readData (c : Cart) (p : Ppu) : Byte × Ppu :=
  if p.dataAddr.toNat < 0x3F00 then (p.readBuffer, { p with readBuffer := ppuRead c p p.dataAddr }.bumpV)
  else (p.paletteByte c, { p with readBuffer := ppuRead c p (p.dataAddr - 0x1000) }.bumpV)

/-- What a CPU read of register r (0 to 7) returns, and the PPU after its side effect, but for `io_latch` (R810 to R817). -/
def Ppu.readRegCore (c : Cart) (p : Ppu) (r : Nat) : Byte × Ppu :=
  match r with
  | 2 => (p.status, { p with vblank := false, w := false })
  | 4 => (Store.read p.oam p.oamAddr.toNat, p)
  | 7 => p.readData c
  | _ => (p.ioLatch, p)

/-- A CPU read of register r: the byte returned refreshes `io_latch` (R819). -/
def Ppu.readReg (c : Cart) (p : Ppu) (r : Nat) : Byte × Ppu :=
  let q := p.readRegCore c r
  (q.1, { q.2 with ioLatch := q.1 })

/-- A write of d to PPUCTRL (R810). -/
def Ppu.writeCtrl (p : Ppu) (d : Byte) : Ppu := { p with ctrl := d, t := putField p.t 10 (field d 0 2) }

/-- A write of d to PPUSCROLL (R815). -/
def Ppu.writeScroll (p : Ppu) (d : Byte) : Ppu :=
  if p.w then { p with t := putField (putField p.t 12 (field d 0 3)) 5 (field d 3 5), w := false }
  else { p with t := putField p.t 0 (field d 3 5), fineX := field d 0 3, w := true }

/-- `t` after the second PPUADDR write (R816). -/
def Ppu.addrLow (p : Ppu) (d : Byte) : BitVec 15 := putField p.t 0 d

/-- A write of d to PPUADDR (R816). -/
def Ppu.writeAddr (p : Ppu) (d : Byte) : Ppu :=
  if p.w then { p with t := p.addrLow d, v := p.addrLow d, w := false }
  else { p with t := putField (putField p.t 8 (field d 0 6)) 14 (0 : BitVec 1), w := true }

/-- A write of d to PPUDATA (R817). -/
def Ppu.writeData (c : Cart) (p : Ppu) (d : Byte) : Cart × Ppu :=
  let q := ppuWrite c p p.dataAddr d
  (q.1, q.2.bumpV)

/-- A CPU write of d to register r (0 to 7) (R810 to R817); every write sets `io_latch` (R819), a write to PPUSTATUS does
nothing else (R812). -/
def Ppu.writeReg (c : Cart) (p : Ppu) (r : Nat) (d : Byte) : Cart × Ppu :=
  let p0 := { p with ioLatch := d }
  match r with
  | 0 => (c, p0.writeCtrl d)
  | 1 => (c, { p0 with mask := d })
  | 3 => (c, { p0 with oamAddr := d })
  | 4 => (c, p0.writeOam d)
  | 5 => (c, p0.writeScroll d)
  | 6 => (c, p0.writeAddr d)
  | 7 => p0.writeData c d
  | _ => (c, p0)

/-- Increment coarse X (R851). -/
def incCoarseX (v : BitVec 15) : BitVec 15 :=
  if field v 0 5 = 31 then putField v 0 (0 : BitVec 5) ^^^ 0x0400 else v + 1

/-- Increment Y (R852). -/
def incY (v : BitVec 15) : BitVec 15 :=
  if (field v 12 3).toNat < 7 then v + 0x1000
  else
    let u := putField v 12 (0 : BitVec 3)
    let cy := field v 5 5
    if cy = 29 then putField u 5 (0 : BitVec 5) ^^^ 0x0800
    else if cy = 31 then putField u 5 (0 : BitVec 5)
    else putField u 5 (cy + 1)

/-- Copy the horizontal bits of t (R853). -/
def copyHorizontal (v t : BitVec 15) : BitVec 15 := (v &&& ~~~0x041F) ||| (t &&& 0x041F)

/-- Copy the vertical bits of t (R854). -/
def copyVertical (v t : BitVec 15) : BitVec 15 := (v &&& ~~~0x7BE0) ||| (t &&& 0x7BE0)

end Sys2Proof.Machine
end

