-- ==== Sys2Proof/Machine/Render.lean ====
section
/-! DEFINITION. One PPU tick (61_ppu.md R830 to R834, R850 to R872, R880): the work of the current scanline and dot, then the
advance. -/

namespace Sys2Proof.Machine

/-! ### Background pipeline -/

/-- Shift the four background registers (R855). -/
def BgPipe.shift (b : BgPipe) : BgPipe :=
  { b with patLo := b.patLo <<< 1, patHi := b.patHi <<< 1, attLo := b.attLo <<< 1, attHi := b.attHi <<< 1 }

/-- `(r & $FF00) | b` (R855). -/
def loadLow (r : BitVec 16) (b : Byte) : BitVec 16 := (r &&& 0xFF00) ||| b.setWidth 16

/-- Load the shift registers from the latches (R855). -/
def BgPipe.load (b : BgPipe) : BgPipe :=
  { b with
    patLo := loadLow b.patLo b.ptLoLatch
    patHi := loadLow b.patHi b.ptHiLatch
    attLo := loadLow b.attLo (if bitAt b.atLatch 0 then 0xFF else 0)
    attHi := loadLow b.attHi (if bitAt b.atLatch 1 then 0xFF else 0) }

/-- The nametable byte's address (R850 step 0). -/
def ntAddr (v : BitVec 15) : BitVec 14 := (0x2000 ||| (v &&& 0x0FFF)).setWidth 14

/-- The attribute byte's address (R850 step 2). -/
def atAddr (v : BitVec 15) : BitVec 14 :=
  (0x23C0 ||| (v &&& 0x0C00) ||| ((v >>> 4) &&& 0x38) ||| ((v >>> 2) &&& 0x07)).setWidth 14

/-- The two palette bits of the attribute byte b (R850 step 2). -/
def atBits (v : BitVec 15) (b : Byte) : BitVec 2 :=
  (b >>> (((v >>> 4) &&& 4) ||| (v &&& 2)).toNat).setWidth 2

/-- The pattern byte's address, `plane` 0 or 8 (R850 steps 4 and 6). -/
def ptAddr (p : Ppu) (plane : Nat) : BitVec 14 :=
  BitVec.ofNat 14
    (boolNat (bitAt p.ctrl 4) * 0x1000 + p.bg.ntLatch.toNat * 16 + (field p.v 12 3).toNat + plane)

/-- The fetch step `k` of R850's table. -/
def Ppu.fetchStep (c : Cart) (p : Ppu) (k : Nat) : Ppu :=
  match k with
  | 0 => { p with bg := { p.bg.load with ntLatch := ppuRead c p (ntAddr p.v) } }
  | 2 => { p with bg := { p.bg with atLatch := atBits p.v (ppuRead c p (atAddr p.v)) } }
  | 4 => { p with bg := { p.bg with ptLoLatch := ppuRead c p (ptAddr p 0) } }
  | 6 => { p with bg := { p.bg with ptHiLatch := ppuRead c p (ptAddr p 8) } }
  | 7 => { p with v := incCoarseX p.v }
  | _ => p

/-- The dots of R850. -/
def fetchDot (d : Nat) : Bool := decide (2 ≤ d ∧ d ≤ 257) || decide (322 ≤ d ∧ d ≤ 337)

/-- Shift, then fetch, at the dots of R850. -/
def Ppu.bgWork (c : Cart) (p : Ppu) : Ppu :=
  if fetchDot p.dot then { p with bg := p.bg.shift }.fetchStep c ((p.dot - 1) % 8) else p

/-- The scroll updates of dots 256, 257 and 280 to 304, after the table's step (R850, R852 to R854). -/
def Ppu.scrollWork (p : Ppu) : Ppu :=
  if p.dot = 256 then { p with v := incY p.v }
  else if p.dot = 257 then { p with v := copyHorizontal p.v p.t }
  else if p.scanline = 261 ∧ 280 ≤ p.dot ∧ p.dot ≤ 304 then { p with v := copyVertical p.v p.t }
  else p

/-! ### Sprites -/

/-- The state of the sprite scan of R861. -/
structure SpriteScan where
  secOam : Vector Byte 32
  count : Nat
  zeroHere : Bool
  overflow : Bool
  deriving DecidableEq, Repr

/-- Sprite height (R861): 16 when `ctrl[5]`. -/
def Ppu.spriteHeight (p : Ppu) : Nat := if bitAt p.ctrl 5 then 16 else 8

/-- The four OAM bytes of sprite n copied into slot `count` of secondary OAM (R861). -/
def copySprite (oam : Memory) (n : Nat) (sec : Vector Byte 32) (count : Nat) : Vector Byte 32 :=
  (((sec.setIfInBounds (4 * count) (Store.read oam (4 * n))).setIfInBounds (4 * count + 1)
    (Store.read oam (4 * n + 1))).setIfInBounds (4 * count + 2) (Store.read oam (4 * n + 2))).setIfInBounds
    (4 * count + 3) (Store.read oam (4 * n + 3))

/-- Whether sprite n covers the line after line s: `0 <= s - oam[4n] < h` (R861). -/
def spriteInRange (oam : Memory) (s h n : Nat) : Bool :=
  decide ((Store.read oam (4 * n)).toNat ≤ s ∧ s < (Store.read oam (4 * n)).toNat + h)

/-- The scan over `left` sprites from sprite n on (R861): the first eight in range are copied, the ninth sets the overflow
flag and ends the scan. -/
def scanSprites (oam : Memory) (s h : Nat) (left n : Nat) (a : SpriteScan) : SpriteScan :=
  match left with
  | 0 => a
  | k + 1 =>
    if spriteInRange oam s h n then
      if a.count < 8 then
        scanSprites oam s h k (n + 1)
          { a with
            secOam := copySprite oam n a.secOam a.count
            count := a.count + 1
            zeroHere := a.zeroHere || n == 0 }
      else { a with overflow := true }
    else scanSprites oam s h k (n + 1) a

/-- The scan of all 64 sprites for the line after line s (R861). -/
def Ppu.spriteScan (p : Ppu) (s : Nat) : SpriteScan :=
  scanSprites p.oam s p.spriteHeight 64 0
    { secOam := Vector.replicate 32 0xFF, count := 0, zeroHere := false, overflow := false }

/-- The row of a chosen sprite, flipped vertically when its attribute bit 7 is set (R862). -/
def spriteRow (s h : Nat) (y attr : Byte) : Nat :=
  if bitAt attr 7 then h - 1 - (s - y.toNat) else s - y.toNat

/-- The pattern address of a chosen sprite's row, `plane` 0 or 8 (R862). -/
def spriteAddr (p : Ppu) (tile : Byte) (r plane : Nat) : BitVec 14 :=
  if bitAt p.ctrl 5 then
    BitVec.ofNat 14
      (boolNat (bitAt tile 0) * 0x1000 + ((tile &&& 0xFE).toNat + (if 8 ≤ r then 1 else 0)) * 16 + r % 8 + plane)
  else BitVec.ofNat 14 (boolNat (bitAt p.ctrl 3) * 0x1000 + tile.toNat * 16 + r + plane)

/-- A pattern byte, its bits reversed when the sprite is flipped horizontally (R862). -/
def spritePattern (attr b : Byte) : Byte := if bitAt attr 6 then b.reverse else b

/-- The line buffer of chosen slot i (R862). -/
def Ppu.fetchSlot (c : Cart) (p : Ppu) (s : Nat) (sec : Vector Byte 32) (i : Nat) : SpriteSlot :=
  let y := entry sec (4 * i) 0
  let tile := entry sec (4 * i + 1) 0
  let attr := entry sec (4 * i + 2) 0
  let r := spriteRow s p.spriteHeight y attr
  { patLo := spritePattern attr (ppuRead c p (spriteAddr p tile r 0))
    patHi := spritePattern attr (ppuRead c p (spriteAddr p tile r 8))
    attr := attr
    x := entry sec (4 * i + 3) 0 }

/-- The line buffers of slots `i`, `i + 1`, … below the count (R862); the others are kept. -/
def Ppu.fetchSlots (c : Cart) (p : Ppu) (s : Nat) (sec : Vector Byte 32) (left i : Nat) (slots : Vector SpriteSlot 8) :
    Vector SpriteSlot 8 :=
  match left with
  | 0 => slots
  | k + 1 => Ppu.fetchSlots c p s sec k (i + 1) (slots.setIfInBounds i (p.fetchSlot c s sec i))

/-- Sprite selection and pattern fetch for the line after visible line s (R861, R862). -/
def Ppu.selectSprites (c : Cart) (p : Ppu) (s : Nat) : Ppu :=
  let a := p.spriteScan s
  { p with
    spr :=
      { secOam := a.secOam
        count := a.count
        zeroHere := a.zeroHere
        slots := p.fetchSlots c s a.secOam a.count 0 p.spr.slots }
    spriteOverflow := p.spriteOverflow || a.overflow
    oamAddr := 0 }

/-- The sprite work of dot 257 (R861, R862; R813 for `oamaddr` on the pre-render line). -/
def Ppu.spriteWork (c : Cart) (p : Ppu) : Ppu :=
  if p.dot = 257 then
    if p.scanline = 261 then { p with spr := { p.spr with count := 0, zeroHere := false }, oamAddr := 0 }
    else p.selectSprites c p.scanline
  else p

/-- Everything a render line does while `rendering` is 1, but for the pixel (R801, R850 to R862). -/
def Ppu.renderWork (c : Cart) (p : Ppu) : Ppu :=
  if p.renderLine && p.rendering then ((p.bgWork c).scrollWork).spriteWork c else p

/-! ### Pixels -/

/-- The background pixel of column c: pattern bits and palette (R856, R864). -/
def Ppu.bgPixel (p : Ppu) (col : Nat) : BitVec 2 × BitVec 2 :=
  let m := 15 - p.fineX.toNat
  let pat : BitVec 2 := BitVec.ofBool (bitAt p.bg.patHi m) ++ BitVec.ofBool (bitAt p.bg.patLo m)
  let pal : BitVec 2 := BitVec.ofBool (bitAt p.bg.attHi m) ++ BitVec.ofBool (bitAt p.bg.attLo m)
  (if !bitAt p.mask 3 || (decide (col < 8) && !bitAt p.mask 1) then 0 else pat, pal)

/-- A sprite pixel (R863). -/
structure SpritePixel where
  q : BitVec 2
  pal : BitVec 2
  behind : Bool
  zero : Bool
  deriving DecidableEq, Repr

/-- The transparent sprite pixel (R863). -/
def SpritePixel.none : SpritePixel := { q := 0, pal := 0, behind := false, zero := false }

/-- The pattern bits a slot shows at a column: 0 outside its eight columns (R863). -/
def SpriteSlot.bits (b : SpriteSlot) (col : Nat) : BitVec 2 :=
  if b.x.toNat ≤ col ∧ col < b.x.toNat + 8 then
    BitVec.ofBool (bitAt b.patHi (7 - (col - b.x.toNat))) ++ BitVec.ofBool (bitAt b.patLo (7 - (col - b.x.toNat)))
  else 0

/-- The first slot with a non-transparent pixel; `zeroHere` says whether the first slot of the list is sprite 0 (R863). -/
def firstSprite (slots : List SpriteSlot) (zeroHere : Bool) (col : Nat) : SpritePixel :=
  match slots with
  | [] => SpritePixel.none
  | b :: r =>
    if b.bits col ≠ 0 then
      { q := b.bits col, pal := field b.attr 0 2, behind := bitAt b.attr 5, zero := zeroHere }
    else firstSprite r false col

/-- The sprite pixel of a column (R863, R864). -/
def Ppu.spritePixel (p : Ppu) (col : Nat) : SpritePixel :=
  if !bitAt p.mask 4 || (decide (col < 8) && !bitAt p.mask 2) then SpritePixel.none
  else firstSprite (p.spr.slots.toList.take p.spr.count) p.spr.zeroHere col

/-- The palette address of a combined pixel (R871). -/
def paletteAddr (pat pal : BitVec 2) (sp : SpritePixel) : BitVec 14 :=
  let bgA := BitVec.ofNat 14 (0x3F00 + pal.toNat * 4 + pat.toNat)
  let spA := BitVec.ofNat 14 (0x3F10 + sp.pal.toNat * 4 + sp.q.toNat)
  if pat = 0 then (if sp.q = 0 then 0x3F00 else spA)
  else if sp.q = 0 then bgA
  else if sp.behind then bgA else spA

/-- Greyscale: every colour index is ANDed with $30 when `mask[0]` (R811, R871; log 8). -/
def Ppu.grey (p : Ppu) (e : BitVec 6) : BitVec 6 := if bitAt p.mask 0 then e &&& 0x30 else e

/-- The colour of column `col` (R870, R871). -/
def Ppu.colour (c : Cart) (p : Ppu) (col : Nat) : BitVec 6 :=
  if p.rendering then
    let b := p.bgPixel col
    p.grey ((ppuRead c p (paletteAddr b.1 b.2 (p.spritePixel col))).setWidth 6)
  else p.grey (Store.read p.palette 0)

/-- Sprite-0 hit at column `col` (R872). -/
def Ppu.hitsSprite0 (p : Ppu) (col : Nat) : Bool :=
  p.rendering && (p.bgPixel col).1 != 0 && (p.spritePixel col).q != 0 && (p.spritePixel col).zero && col != 255

/-- The frame buffer's key of row s, column col (R880). -/
def fbKey (s col : Nat) : Nat := 256 * s + col

/-- The pixel of a visible dot (R870, R872, R880). -/
def Ppu.pixelWork (c : Cart) (p : Ppu) : Ppu :=
  if p.scanline < 240 ∧ 1 ≤ p.dot ∧ p.dot ≤ 256 then
    { p with
      fb := Store.write p.fb (fbKey p.scanline (p.dot - 1)) (field p.mask 5 3 ++ p.colour c (p.dot - 1))
      sprite0Hit := p.sprite0Hit || p.hitsSprite0 (p.dot - 1) }
  else p

/-! ### The tick -/

/-- The vertical-blank events of lines 241 and 261 (R831, R832, R835). -/
def Ppu.vblankWork (p : Ppu) : Ppu :=
  if p.dot = 1 then
    if p.scanline = 241 then { p with vblank := true, frame := p.frame + 1 }
    else if p.scanline = 261 then { p with vblank := false, sprite0Hit := false, spriteOverflow := false }
    else p
  else p

/-- The odd-frame skip: dot 340 of the pre-render line is skipped (R834). -/
def Ppu.skipsDot (p : Ppu) : Bool := p.scanline == 261 && p.dot == 339 && p.oddFrame && p.rendering

/-- The advance to the next scanline (R830). -/
def Ppu.nextLine (p : Ppu) : Ppu :=
  if 261 ≤ p.scanline then { p with dot := 0, scanline := 0, oddFrame := !p.oddFrame }
  else { p with dot := 0, scanline := p.scanline + 1 }

/-- The advance of the dot (R830, R834). -/
def Ppu.advance (p : Ppu) : Ppu :=
  if p.skipsDot || decide (340 ≤ p.dot) then p.nextLine else { p with dot := p.dot + 1 }

/-- One PPU tick (R830). -/
def Ppu.tick (c : Cart) (p : Ppu) : Ppu := (((p.vblankWork).renderWork c).pixelWork c).advance

end Sys2Proof.Machine
end

