-- ==== Sys2Proof/Machine/Ops.lean ====
section
/-! DEFINITION. The machine's named operations: registers, the CPU bus with its regions, latch and events, OAM DMA, fetch,
push and pull, entering a handler and returning from one, power-on and reset (00_scope.md R13 to R18; 10_state.md;
20_memory.md R200 to R262; 60_exceptions.md R720, R730, R731, R770; 70_reset_and_hazards.md R1030). -/

namespace Sys2Proof.Machine

/-! ### Registers -/

/-- `A <- v`. -/
def State.setA (s : State) (v : Byte) : State := { s with regs := { s.regs with a := v } }

/-- `X <- v`. -/
def State.setX (s : State) (v : Byte) : State := { s with regs := { s.regs with x := v } }

/-- `Y <- v`. -/
def State.setY (s : State) (v : Byte) : State := { s with regs := { s.regs with y := v } }

/-- `S <- v`. -/
def State.setSp (s : State) (v : Byte) : State := { s with regs := { s.regs with sp := v } }

/-- `PC <- w`. -/
def State.setPc (s : State) (w : Word) : State := { s with regs := { s.regs with pc := w } }

/-- The stored flags become `p`. -/
def State.setP (s : State) (p : Flags) : State := { s with regs := { s.regs with p := p } }

/-- `cycles += n` (R18). -/
def State.addCycles (s : State) (n : Nat) : State := { s with ctl := { s.ctl with stepCycles := s.ctl.stepCycles + n } }

/-- The start of an instruction's rule: its base count from the opcode table (R1010, R770 `base`). -/
def State.begin (s : State) (base : Nat) : State :=
  { s with ctl := { s.ctl with stepBase := base, stepCycles := s.ctl.stepCycles + base } }

/-! ### Interrupt lines -/

/-- `irq_line`: the OR of its three sources (R142, R731). -/
def State.irqLine (s : State) : Bool := s.apu.frameIrq || s.apu.dmcIrq || s.inputs.extIrq

/-- The PPU becomes `p`, and an NMI is latched if the NMI output rose (R141, R730). -/
def State.setPpu (s : State) (p : Ppu) : State :=
  { s with
    ppu := p
    ctl := { s.ctl with nmiPending := s.ctl.nmiPending || (!s.ppu.nmiOut && p.nmiOut) } }

/-! ### The address map -/

/-- The regions of the CPU address map (R210). -/
inductive Region where
  | ram
  | ppuReg (r : Nat)
  | apuReg (r : Nat)
  | oamDma
  | apuStatus
  | pad1
  | pad2
  | unused
  | cart
  deriving DecidableEq, Repr

/-- The region of an address (R210, R212 to R217). -/
def regionOf (a : Word) : Region :=
  let k := a.toNat
  if k < 0x2000 then .ram
  else if k < 0x4000 then .ppuReg (k % 8)
  else if k < 0x4014 then .apuReg (k - 0x4000)
  else if k = 0x4014 then .oamDma
  else if k = 0x4015 then .apuStatus
  else if k = 0x4016 then .pad1
  else if k = 0x4017 then .pad2
  else if k < 0x4020 then .unused
  else .cart

/-- The internal RAM byte an address in $0000-$1FFF reaches: `a & $07FF` (R212). -/
def ramIndex (a : Word) : Nat := a.toNat % 0x800

/-- The read of the region an address selects, with its side effect: steps 1 and 2 of `BusRead` (R200, R212 to R217). -/
def readRegion (a : Word) (s : State) : Byte × State :=
  match regionOf a with
  | .ram => (Store.read s.ram (ramIndex a), s)
  | .ppuReg r => ((s.ppu.readReg s.cart r).1, s.setPpu (s.ppu.readReg s.cart r).2)
  | .apuReg _ => (s.busLatch, s)
  | .oamDma => (s.busLatch, s)
  | .apuStatus => (s.apu.status s.busLatch, { s with apu := s.apu.afterStatusRead })
  | .pad1 => ((s.pads.read1 s.inputs).1, { s with pads := (s.pads.read1 s.inputs).2 })
  | .pad2 => ((s.pads.read2 s.inputs).1, { s with pads := (s.pads.read2 s.inputs).2 })
  | .unused => (s.busLatch, s)
  | .cart => (s.cart.read s.busLatch a.toNat, s)

/-- The write of the region an address selects, with its side effect: steps 1 and 2 of `BusWrite` (R201, R212 to R217);
OAM DMA, which follows the transaction, is `oamDma`. -/
def writeRegion (a : Word) (v : Byte) (s : State) : State :=
  match regionOf a with
  | .ram => { s with ram := Store.write s.ram (ramIndex a) v }
  | .ppuReg r => { s with cart := (s.ppu.writeReg s.cart r v).1 }.setPpu (s.ppu.writeReg s.cart r v).2
  | .apuReg r => { s with apu := s.apu.writeReg r v }
  | .oamDma => s
  | .apuStatus => { s with apu := s.apu.writeEnable v }
  | .pad1 => { s with pads := s.pads.writeStrobe s.inputs v }
  | .pad2 => { s with apu := s.apu.writeFrameCounter v }
  | .unused => s
  | .cart => { s with cart := s.cart.write a.toNat v }

/-! ### Bus transactions -/

/-- Steps 3 and 4 of a transaction: the latch and the event (R200, R201, R216, R260). -/
def State.conclude (s : State) (kind : AccessKind) (cycle : Nat) (a : Word) (v : Byte) : State :=
  { s with
    busLatch := v
    trace :=
      { address := a, value := v, kind := kind, frame := s.ppu.frame, cycle := cycle, programCounter := s.ctl.instrPc,
        snapshot := (s.inputs.buttons1, s.inputs.buttons2) } :: s.trace }

/-- `BusRead(a)` with the given `cycle` field of its event (R200, R260). -/
def busReadAt (cycle : Nat) (a : Word) (s : State) : Byte × State :=
  ((readRegion a s).1, (readRegion a s).2.conclude .read cycle a (readRegion a s).1)

/-- `BusRead(a)`, i.e. `MemRead(a, 1)`, made by the CPU step (R13, R200). -/
def busRead (a : Word) (s : State) : Byte × State := busReadAt s.ctl.instrCycle a s

/-- A `BusWrite` made by the CPU step, without what a write to $4014 starts (R201). -/
def plainWrite (a : Word) (v : Byte) (s : State) : State :=
  (writeRegion a v s).conclude .write s.ctl.instrCycle a v

/-- One read and one write of OAM DMA: byte i of page v (R770). -/
def dmaByte (v : Byte) (i : Nat) (s : State) : State :=
  let r := busRead (wordOf v (BitVec.ofNat 8 i)) s
  plainWrite 0x2004 r.1 r.2

/-- `left` bytes of OAM DMA from byte i on (R770). -/
def dmaBytes (v : Byte) (left i : Nat) (s : State) : State :=
  match left with
  | 0 => s
  | k + 1 => dmaBytes v k (i + 1) (dmaByte v i s)

/-- OAM DMA from page v: 256 pairs, and `513 + odd` cycles (R770). -/
def oamDma (v : Byte) (s : State) : State :=
  (dmaBytes v 256 0 s).addCycles (513 + (s.ctl.instrCycle + s.ctl.stepBase) % 2)

/-- `BusWrite(a, v)`, i.e. `MemWrite(a, 1, v)`: a write to $4014 is followed by OAM DMA (R13, R201, R770). -/
def busWrite (a : Word) (v : Byte) (s : State) : State :=
  if a = 0x4014 then oamDma v (plainWrite a v s) else plainWrite a v s

/-! ### Fetch and stack -/

/-- `Fetch()` (R14). -/
def fetch (s : State) : Byte × State :=
  let r := busRead s.regs.pc s
  (r.1, r.2.setPc (r.2.regs.pc + 1))

/-- The stack address `$0100 + S` (R125). -/
def stackAddr (sp : Byte) : Word := wordOf 0x01 sp

/-- `Push(v)` (R15, R130). -/
def push (v : Byte) (s : State) : State :=
  (busWrite (stackAddr s.regs.sp) v s).setSp (s.regs.sp - 1)

/-- `Pull()` (R15, R131). -/
def pull (s : State) : Byte × State := busRead (stackAddr (s.regs.sp + 1)) (s.setSp (s.regs.sp + 1))

/-- `MemRead16(a, b)`: a before b (R13). -/
def read16 (a b : Word) (s : State) : Word × State :=
  let lo := busRead a s
  let hi := busRead b lo.2
  (wordOf hi.1 lo.1, hi.2)

/-! ### Entering a handler and returning from one -/

/-- `Push(w[15:8]); Push(w[7:0])` (R203, R610, R612, R720). -/
def pushWord (w : Word) (s : State) : State := push (loByte w) (push (hiByte w) s)

/-- What an interrupt entry and BRK share (R612, R720): push the return address and the status with the given B bit, set I,
load PC from the vector. -/
def enterHandler (ret : Word) (b : Bool) (vector : Word) (s : State) : State :=
  let s1 := push (s.regs.p.pushed b) (pushWord ret s)
  let s2 := s1.setP (s1.regs.p.setI true)
  let v := read16 vector (vector + 1) s2
  v.2.setPc v.1

/-- `InterruptEntry(vector)`: the address pushed is that of the instruction not yet executed (R720). -/
def interruptEntry (vector : Word) (s : State) : State := (enterHandler s.regs.pc false vector s).addCycles 7

/-- The pull of a 16-bit address, low byte first (R611, R613). -/
def pullWord (s : State) : Word × State :=
  let lo := pull s
  let hi := pull lo.2
  (wordOf hi.1 lo.1, hi.2)

/-- The return from a handler (R613, R740): status, then PC, nothing added. -/
def returnFromHandler (s : State) : State :=
  let p := pull s
  let w := pullWord (p.2.setP (Flags.ofByte p.1))
  w.2.setPc w.1

/-! ### Vectors (R218) -/

/-- The NMI vector. -/
def nmiVector : Word := 0xFFFA

/-- The reset vector. -/
def resetVector : Word := 0xFFFC

/-- The IRQ and BRK vector. -/
def irqVector : Word := 0xFFFE

/-! ### Power-on and reset -/

/-- A machine constructed from a cartridge (R1032): every memory $00, every register and latch at its reset value,
`bus_latch = $00`, nothing delivered. -/
def State.powerOn (c : Cart) : State := { State.reset with cart := c, busLatch := 0, trace := [] }

/-- Steps 1 to 4 of `reset()` (R1030). -/
def State.resetLatches (s : State) : State :=
  { s with
    regs := { a := 0, x := 0, y := 0, sp := 0xFD, pc := s.regs.pc, p := Flags.reset }
    ctl := { State.reset.ctl with cyclesTotal := 0, instrPc := resetVector, instrCycle := 0 }
    cart := s.cart.reset
    ppu := Ppu.resetWith s.ppu.vram s.ppu.palette s.ppu.oam
    apu := Apu.reset
    pads := Pads.reset }

/-- `reset()` (R1030): the latches, the two vector reads, then PC and the counters. -/
def resetOp (s : State) : State :=
  let v := read16 resetVector (resetVector + 1) s.resetLatches
  { v.2 with
    regs := { v.2.regs with pc := v.1 }
    ctl := { v.2.ctl with instrPc := v.1, cyclesTotal := 7, instrCycle := 7 } }

/-- `load(image)`: the machine constructed from an image, or the load error and no machine (R221, R1032, R1045). -/
def loadImage (img : List Byte) : Except LoadError State :=
  match loadCart img with
  | .ok c => .ok (State.powerOn c)
  | .error e => .error e

end Sys2Proof.Machine
end

