-- ==== Sys2Proof/Machine/Operands.lean ====
section
/-! DEFINITION. Addressing modes and operand access classes (30_encoding.md R320 to R337), and the page penalty of the read
class (70_reset_and_hazards.md R1011). The operand bytes have been fetched when a mode is evaluated (R301, R273). -/

namespace Sys2Proof.Machine

/-- The addressing modes that give an effective address, with their operand (R323 to R331; JMP's `ind` is `indirect`). -/
inductive MemMode where
  | zp (n : Byte)
  | zpx (n : Byte)
  | zpy (n : Byte)
  | abs (w : Word)
  | abx (w : Word)
  | aby (w : Word)
  | izx (n : Byte)
  | izy (n : Byte)
  deriving DecidableEq, Repr

/-- An effective address and whether forming it crossed a page (§3). -/
structure Ea where
  addr : Word
  crossed : Bool
  deriving DecidableEq, Repr

/-- An effective address formed without `crossed` (R323 to R326, R330). -/
def Ea.plain (a : Word) : Ea := { addr := a, crossed := false }

/-- A base plus an index: `u16(base + i)`, crossed when the page changes (R327, R328, R331). -/
def Ea.indexed (base : Word) (i : Byte) : Ea :=
  { addr := base + zeroPage i, crossed := page (base + zeroPage i) != page base }

/-- The zero-page pointer at p: its second byte wraps within page zero (R330, R331). -/
def pointer (p : Byte) (s : State) : Word × State := read16 (zeroPage p) (zeroPage (p + 1)) s

/-- The effective address of a mode, with the pointer reads of the indirect ones (R323 to R331). -/
def MemMode.ea (m : MemMode) (s : State) : Ea × State :=
  match m with
  | .zp n => (Ea.plain (zeroPage n), s)
  | .zpx n => (Ea.plain (zeroPage (n + s.regs.x)), s)
  | .zpy n => (Ea.plain (zeroPage (n + s.regs.y)), s)
  | .abs w => (Ea.plain w, s)
  | .abx w => (Ea.indexed w s.regs.x, s)
  | .aby w => (Ea.indexed w s.regs.y, s)
  | .izx n => (Ea.plain (pointer (n + s.regs.x) s).1, (pointer (n + s.regs.x) s).2)
  | .izy n => (Ea.indexed (pointer n s).1 (pointer n s).2.regs.y, (pointer n s).2)

/-- JMP's absolute indirect mode: the high byte comes from the same page (R329). -/
def indirect (w : Word) (s : State) : Word × State := read16 w (wordOf (hiByte w) (loByte w + 1)) s

/-- An operand of the read class (R335). -/
inductive ReadOp where
  | imm (n : Byte)
  | mem (m : MemMode)
  deriving DecidableEq, Repr

/-- `ReadOperand(mode)` (R335), one cycle more when the mode crossed a page (R1011). -/
def ReadOp.get (o : ReadOp) (s : State) : Byte × State :=
  match o with
  | .imm n => (n, s)
  | .mem m => busRead (m.ea s).1.addr ((m.ea s).2.addCycles (boolNat (m.ea s).1.crossed))

/-- `WriteOperand(mode, v)`, the value taken from the state before it (R336). -/
def MemMode.put (m : MemMode) (v : Byte) (s : State) : State := busWrite (m.ea s).1.addr v (m.ea s).2

/-- An operand of the read-modify-write class (R337). -/
inductive ModOp where
  | acc
  | mem (m : MemMode)
  deriving DecidableEq, Repr

/-- `ModifyOperand(mode, f)`: the operand read, and the state after the result was written (R321, R337). -/
def ModOp.modify (o : ModOp) (f : Byte → Byte) (s : State) : Byte × State :=
  match o with
  | .acc => (s.regs.a, s.setA (f s.regs.a))
  | .mem m =>
    let r := busRead (m.ea s).1.addr (m.ea s).2
    (r.1, busWrite (m.ea s).1.addr (f r.1) r.2)

end Sys2Proof.Machine
end

