-- ==== Sys2Proof/Machine/Arithmetic.lean ====
section
/-! DEFINITION. The meanings of: Arithmetic, compare, increment and decrement (42_arithmetic.md R500 to R514). Each is one row of
spec/opcode_table.json: its mode, its base cycle count, its rule. PC is already past the instruction's bytes. -/

namespace Sys2Proof.Machine

/-- ADC: `(r, c, v) <- AddC(A, M, P.C); A <- r; P.C <- c; P.V <- v; SetNZ(A)` (R501). -/
def opAdc (o : ReadOp) (s : State) : State :=
  let r := o.get s
  (r.2.setA (addByte r.2.regs.a r.1 r.2.regs.p.c)).setP (r.2.regs.p.afterAdd r.2.regs.a r.1)

/-- SBC: as ADC with `~M` (R502). -/
def opSbc (o : ReadOp) (s : State) : State :=
  let r := o.get s
  (r.2.setA (addByte r.2.regs.a (~~~r.1) r.2.regs.p.c)).setP (r.2.regs.p.afterAdd r.2.regs.a (~~~r.1))

/-- CMP: `Compare(A, M)` (R503). -/
def opCmp (o : ReadOp) (s : State) : State :=
  let r := o.get s
  r.2.setP (r.2.regs.p.compare r.2.regs.a r.1)

/-- CPX: `Compare(X, M)` (R504). -/
def opCpx (o : ReadOp) (s : State) : State :=
  let r := o.get s
  r.2.setP (r.2.regs.p.compare r.2.regs.x r.1)

/-- CPY: `Compare(Y, M)` (R505). -/
def opCpy (o : ReadOp) (s : State) : State :=
  let r := o.get s
  r.2.setP (r.2.regs.p.compare r.2.regs.y r.1)

/-- INC: `f(m) = u8(m + 1)`, then `SetNZ(result)` (R506). -/
def opInc (m : MemMode) (s : State) : State :=
  let r := (ModOp.mem m).modify (· + 1) s
  r.2.setP (r.2.regs.p.setNZ (r.1 + 1))

/-- DEC: `f(m) = u8(m - 1)`, then `SetNZ(result)` (R507). -/
def opDec (m : MemMode) (s : State) : State :=
  let r := (ModOp.mem m).modify (· - 1) s
  r.2.setP (r.2.regs.p.setNZ (r.1 - 1))

/-- $61 `ADC ($nn,X)` (R501). -/
def execAdcIzx (n : Byte) (s : State) : Ans :=
  .next (opAdc (.mem (.izx n)) (s.begin 6))

/-- $65 `ADC $nn` (R501). -/
def execAdcZp (n : Byte) (s : State) : Ans :=
  .next (opAdc (.mem (.zp n)) (s.begin 3))

/-- $69 `ADC #$nn` (R501). -/
def execAdcImm (n : Byte) (s : State) : Ans :=
  .next (opAdc (.imm n) (s.begin 2))

/-- $6D `ADC $hhll` (R501). -/
def execAdcAbs (w : Word) (s : State) : Ans :=
  .next (opAdc (.mem (.abs w)) (s.begin 4))

/-- $71 `ADC ($nn),Y` (R501). -/
def execAdcIzy (n : Byte) (s : State) : Ans :=
  .next (opAdc (.mem (.izy n)) (s.begin 5))

/-- $75 `ADC $nn,X` (R501). -/
def execAdcZpx (n : Byte) (s : State) : Ans :=
  .next (opAdc (.mem (.zpx n)) (s.begin 4))

/-- $79 `ADC $hhll,Y` (R501). -/
def execAdcAby (w : Word) (s : State) : Ans :=
  .next (opAdc (.mem (.aby w)) (s.begin 4))

/-- $7D `ADC $hhll,X` (R501). -/
def execAdcAbx (w : Word) (s : State) : Ans :=
  .next (opAdc (.mem (.abx w)) (s.begin 4))

/-- $E1 `SBC ($nn,X)` (R502). -/
def execSbcIzx (n : Byte) (s : State) : Ans :=
  .next (opSbc (.mem (.izx n)) (s.begin 6))

/-- $E5 `SBC $nn` (R502). -/
def execSbcZp (n : Byte) (s : State) : Ans :=
  .next (opSbc (.mem (.zp n)) (s.begin 3))

/-- $E9 `SBC #$nn` (R502). -/
def execSbcImm (n : Byte) (s : State) : Ans :=
  .next (opSbc (.imm n) (s.begin 2))

/-- $ED `SBC $hhll` (R502). -/
def execSbcAbs (w : Word) (s : State) : Ans :=
  .next (opSbc (.mem (.abs w)) (s.begin 4))

/-- $F1 `SBC ($nn),Y` (R502). -/
def execSbcIzy (n : Byte) (s : State) : Ans :=
  .next (opSbc (.mem (.izy n)) (s.begin 5))

/-- $F5 `SBC $nn,X` (R502). -/
def execSbcZpx (n : Byte) (s : State) : Ans :=
  .next (opSbc (.mem (.zpx n)) (s.begin 4))

/-- $F9 `SBC $hhll,Y` (R502). -/
def execSbcAby (w : Word) (s : State) : Ans :=
  .next (opSbc (.mem (.aby w)) (s.begin 4))

/-- $FD `SBC $hhll,X` (R502). -/
def execSbcAbx (w : Word) (s : State) : Ans :=
  .next (opSbc (.mem (.abx w)) (s.begin 4))

/-- $C1 `CMP ($nn,X)` (R503). -/
def execCmpIzx (n : Byte) (s : State) : Ans :=
  .next (opCmp (.mem (.izx n)) (s.begin 6))

/-- $C5 `CMP $nn` (R503). -/
def execCmpZp (n : Byte) (s : State) : Ans :=
  .next (opCmp (.mem (.zp n)) (s.begin 3))

/-- $C9 `CMP #$nn` (R503). -/
def execCmpImm (n : Byte) (s : State) : Ans :=
  .next (opCmp (.imm n) (s.begin 2))

/-- $CD `CMP $hhll` (R503). -/
def execCmpAbs (w : Word) (s : State) : Ans :=
  .next (opCmp (.mem (.abs w)) (s.begin 4))

/-- $D1 `CMP ($nn),Y` (R503). -/
def execCmpIzy (n : Byte) (s : State) : Ans :=
  .next (opCmp (.mem (.izy n)) (s.begin 5))

/-- $D5 `CMP $nn,X` (R503). -/
def execCmpZpx (n : Byte) (s : State) : Ans :=
  .next (opCmp (.mem (.zpx n)) (s.begin 4))

/-- $D9 `CMP $hhll,Y` (R503). -/
def execCmpAby (w : Word) (s : State) : Ans :=
  .next (opCmp (.mem (.aby w)) (s.begin 4))

/-- $DD `CMP $hhll,X` (R503). -/
def execCmpAbx (w : Word) (s : State) : Ans :=
  .next (opCmp (.mem (.abx w)) (s.begin 4))

/-- $E0 `CPX #$nn` (R504). -/
def execCpxImm (n : Byte) (s : State) : Ans :=
  .next (opCpx (.imm n) (s.begin 2))

/-- $E4 `CPX $nn` (R504). -/
def execCpxZp (n : Byte) (s : State) : Ans :=
  .next (opCpx (.mem (.zp n)) (s.begin 3))

/-- $EC `CPX $hhll` (R504). -/
def execCpxAbs (w : Word) (s : State) : Ans :=
  .next (opCpx (.mem (.abs w)) (s.begin 4))

/-- $C0 `CPY #$nn` (R505). -/
def execCpyImm (n : Byte) (s : State) : Ans :=
  .next (opCpy (.imm n) (s.begin 2))

/-- $C4 `CPY $nn` (R505). -/
def execCpyZp (n : Byte) (s : State) : Ans :=
  .next (opCpy (.mem (.zp n)) (s.begin 3))

/-- $CC `CPY $hhll` (R505). -/
def execCpyAbs (w : Word) (s : State) : Ans :=
  .next (opCpy (.mem (.abs w)) (s.begin 4))

/-- $E6 `INC $nn` (R506). -/
def execIncZp (n : Byte) (s : State) : Ans :=
  .next (opInc (.zp n) (s.begin 5))

/-- $EE `INC $hhll` (R506). -/
def execIncAbs (w : Word) (s : State) : Ans :=
  .next (opInc (.abs w) (s.begin 6))

/-- $F6 `INC $nn,X` (R506). -/
def execIncZpx (n : Byte) (s : State) : Ans :=
  .next (opInc (.zpx n) (s.begin 6))

/-- $FE `INC $hhll,X` (R506). -/
def execIncAbx (w : Word) (s : State) : Ans :=
  .next (opInc (.abx w) (s.begin 7))

/-- $C6 `DEC $nn` (R507). -/
def execDecZp (n : Byte) (s : State) : Ans :=
  .next (opDec (.zp n) (s.begin 5))

/-- $CE `DEC $hhll` (R507). -/
def execDecAbs (w : Word) (s : State) : Ans :=
  .next (opDec (.abs w) (s.begin 6))

/-- $D6 `DEC $nn,X` (R507). -/
def execDecZpx (n : Byte) (s : State) : Ans :=
  .next (opDec (.zpx n) (s.begin 6))

/-- $DE `DEC $hhll,X` (R507). -/
def execDecAbx (w : Word) (s : State) : Ans :=
  .next (opDec (.abx w) (s.begin 7))

/-- $E8 `INX` (R508): `X <- u8(X + 1); SetNZ(X)`. -/
def execInx (s : State) : Ans :=
  let t := s.begin 2
  .next ((t.setX (t.regs.x + 1)).setP (t.regs.p.setNZ (t.regs.x + 1)))

/-- $C8 `INY` (R509): `Y <- u8(Y + 1); SetNZ(Y)`. -/
def execIny (s : State) : Ans :=
  let t := s.begin 2
  .next ((t.setY (t.regs.y + 1)).setP (t.regs.p.setNZ (t.regs.y + 1)))

/-- $CA `DEX` (R510): `X <- u8(X - 1); SetNZ(X)`. -/
def execDex (s : State) : Ans :=
  let t := s.begin 2
  .next ((t.setX (t.regs.x - 1)).setP (t.regs.p.setNZ (t.regs.x - 1)))

/-- $88 `DEY` (R511): `Y <- u8(Y - 1); SetNZ(Y)`. -/
def execDey (s : State) : Ans :=
  let t := s.begin 2
  .next ((t.setY (t.regs.y - 1)).setP (t.regs.p.setNZ (t.regs.y - 1)))

end Sys2Proof.Machine
end

