-- ==== Sys2Proof/Machine/Control.lean ====
section
/-! DEFINITION. The meanings of: Branches, jumps, subroutines, software interrupt and return (44_control.md R600 to R613). Each is one row of
spec/opcode_table.json: its mode, its base cycle count, its rule. PC is already past the instruction's bytes. -/

namespace Sys2Proof.Machine

/-- The branch target: `next` plus the signed offset (30_encoding.md R332). -/
def relTarget (next : Word) (n : Byte) : Word := next + s8Word n

/-- The cycles a taken branch adds: 1, and 1 more when the target is on another page (R600, 70_reset_and_hazards.md R1012). -/
def branchCycles (next : Word) (n : Byte) : Nat := 1 + boolNat (page (relTarget next n) != page next)

/-- `Branch(cond)` (R600); PC is `next`, the address after the branch. -/
def opBranch (cond : Bool) (n : Byte) (s : State) : State :=
  if cond then (s.setPc (relTarget s.regs.pc n)).addCycles (branchCycles s.regs.pc n) else s

/-- $90 `BCC $rr` (R601). -/
def execBcc (n : Byte) (s : State) : Ans :=
  .next (opBranch (!s.regs.p.c) n (s.begin 2))

/-- $B0 `BCS $rr` (R602). -/
def execBcs (n : Byte) (s : State) : Ans :=
  .next (opBranch (s.regs.p.c) n (s.begin 2))

/-- $F0 `BEQ $rr` (R603). -/
def execBeq (n : Byte) (s : State) : Ans :=
  .next (opBranch (s.regs.p.z) n (s.begin 2))

/-- $D0 `BNE $rr` (R604). -/
def execBne (n : Byte) (s : State) : Ans :=
  .next (opBranch (!s.regs.p.z) n (s.begin 2))

/-- $30 `BMI $rr` (R605). -/
def execBmi (n : Byte) (s : State) : Ans :=
  .next (opBranch (s.regs.p.n) n (s.begin 2))

/-- $10 `BPL $rr` (R606). -/
def execBpl (n : Byte) (s : State) : Ans :=
  .next (opBranch (!s.regs.p.n) n (s.begin 2))

/-- $50 `BVC $rr` (R607). -/
def execBvc (n : Byte) (s : State) : Ans :=
  .next (opBranch (!s.regs.p.v) n (s.begin 2))

/-- $70 `BVS $rr` (R608). -/
def execBvs (n : Byte) (s : State) : Ans :=
  .next (opBranch (s.regs.p.v) n (s.begin 2))

/-- $4C `JMP $hhll` (R609): `pc <- hh:ll`, no data access. -/
def execJmpAbs (w : Word) (s : State) : Ans :=
  .next ((s.begin 3).setPc w)

/-- $6C `JMP ($hhll)` (R609): `pc` is the word at the pointer, with the page wrap of R329. -/
def execJmpInd (w : Word) (s : State) : Ans :=
  let r := indirect w (s.begin 5)
  .next (r.2.setPc r.1)

/-- $20 `JSR $hhll` (R610): the pushed return address is that of the JSR's last byte. -/
def execJsr (w : Word) (s : State) : Ans :=
  .next ((pushWord ((s.begin 6).regs.pc - 1) (s.begin 6)).setPc w)

/-- $60 `RTS` (R611): `pc <- u16(hi:lo + 1)`. -/
def execRts (s : State) : Ans :=
  let t := s.begin 6
  .next ((pullWord t).2.setPc ((pullWord t).1 + 1))

/-- $00 `BRK` (R612): the return address is the BRK's own plus 2 (PC already points past the opcode), the pushed B is 1, the vector is IRQ's; I is set, D kept. -/
def execBrk (s : State) : Ans :=
  let t := s.begin 7
  .next (enterHandler (t.regs.pc + 1) true irqVector t)

/-- $40 `RTI` (R613): status, then PC. -/
def execRti (s : State) : Ans :=
  let t := s.begin 6
  .next (returnFromHandler t)

end Sys2Proof.Machine
end

