-- ==== Sys2Proof/Machine/FlagOps.lean ====
section
/-! DEFINITION. The meanings of: Flag instructions and NOP (45_flags_misc.md R650 to R658). Each is one row of
spec/opcode_table.json: its mode, its base cycle count, its rule. PC is already past the instruction's bytes. -/

namespace Sys2Proof.Machine

/-- $18 `CLC` (R651): `P.C <- 0`. -/
def execClc (s : State) : Ans :=
  let t := s.begin 2
  .next (t.setP (t.regs.p.setC false))

/-- $38 `SEC` (R652): `P.C <- 1`. -/
def execSec (s : State) : Ans :=
  let t := s.begin 2
  .next (t.setP (t.regs.p.setC true))

/-- $58 `CLI` (R653): `P.I <- 0`. -/
def execCli (s : State) : Ans :=
  let t := s.begin 2
  .next (t.setP (t.regs.p.setI false))

/-- $78 `SEI` (R654): `P.I <- 1`. -/
def execSei (s : State) : Ans :=
  let t := s.begin 2
  .next (t.setP (t.regs.p.setI true))

/-- $D8 `CLD` (R655): `P.D <- 0`. -/
def execCld (s : State) : Ans :=
  let t := s.begin 2
  .next (t.setP (t.regs.p.setD false))

/-- $F8 `SED` (R656): `P.D <- 1`. -/
def execSed (s : State) : Ans :=
  let t := s.begin 2
  .next (t.setP (t.regs.p.setD true))

/-- $B8 `CLV` (R657): `P.V <- 0`. -/
def execClv (s : State) : Ans :=
  let t := s.begin 2
  .next (t.setP (t.regs.p.setV false))

/-- $EA `NOP` (R658): nothing but its cycles. -/
def execNop (s : State) : Ans :=
  .next (s.begin 2)

end Sys2Proof.Machine
end

