-- ==== Sys2Proof/Machine/LoadStore.lean ====
section
/-! DEFINITION. The meanings of: Loads, stores and register transfers (40_load_store_transfer.md R400 to R412). Each is one row of
spec/opcode_table.json: its mode, its base cycle count, its rule. PC is already past the instruction's bytes. -/

namespace Sys2Proof.Machine

/-- LDA: `M <- ReadOperand(mode); A <- M; SetNZ(A)` (R401). -/
def opLda (o : ReadOp) (s : State) : State :=
  let r := o.get s
  (r.2.setA r.1).setP (r.2.regs.p.setNZ r.1)

/-- LDX: `M <- ReadOperand(mode); X <- M; SetNZ(X)` (R402). -/
def opLdx (o : ReadOp) (s : State) : State :=
  let r := o.get s
  (r.2.setX r.1).setP (r.2.regs.p.setNZ r.1)

/-- LDY: `M <- ReadOperand(mode); Y <- M; SetNZ(Y)` (R403). -/
def opLdy (o : ReadOp) (s : State) : State :=
  let r := o.get s
  (r.2.setY r.1).setP (r.2.regs.p.setNZ r.1)

/-- STA: `WriteOperand(mode, A)` (R404). -/
def opSta (m : MemMode) (s : State) : State := m.put s.regs.a s

/-- STX: `WriteOperand(mode, X)` (R405). -/
def opStx (m : MemMode) (s : State) : State := m.put s.regs.x s

/-- STY: `WriteOperand(mode, Y)` (R406). -/
def opSty (m : MemMode) (s : State) : State := m.put s.regs.y s

/-- $A1 `LDA ($nn,X)` (R401). -/
def execLdaIzx (n : Byte) (s : State) : Ans :=
  .next (opLda (.mem (.izx n)) (s.begin 6))

/-- $A5 `LDA $nn` (R401). -/
def execLdaZp (n : Byte) (s : State) : Ans :=
  .next (opLda (.mem (.zp n)) (s.begin 3))

/-- $A9 `LDA #$nn` (R401). -/
def execLdaImm (n : Byte) (s : State) : Ans :=
  .next (opLda (.imm n) (s.begin 2))

/-- $AD `LDA $hhll` (R401). -/
def execLdaAbs (w : Word) (s : State) : Ans :=
  .next (opLda (.mem (.abs w)) (s.begin 4))

/-- $B1 `LDA ($nn),Y` (R401). -/
def execLdaIzy (n : Byte) (s : State) : Ans :=
  .next (opLda (.mem (.izy n)) (s.begin 5))

/-- $B5 `LDA $nn,X` (R401). -/
def execLdaZpx (n : Byte) (s : State) : Ans :=
  .next (opLda (.mem (.zpx n)) (s.begin 4))

/-- $B9 `LDA $hhll,Y` (R401). -/
def execLdaAby (w : Word) (s : State) : Ans :=
  .next (opLda (.mem (.aby w)) (s.begin 4))

/-- $BD `LDA $hhll,X` (R401). -/
def execLdaAbx (w : Word) (s : State) : Ans :=
  .next (opLda (.mem (.abx w)) (s.begin 4))

/-- $A2 `LDX #$nn` (R402). -/
def execLdxImm (n : Byte) (s : State) : Ans :=
  .next (opLdx (.imm n) (s.begin 2))

/-- $A6 `LDX $nn` (R402). -/
def execLdxZp (n : Byte) (s : State) : Ans :=
  .next (opLdx (.mem (.zp n)) (s.begin 3))

/-- $AE `LDX $hhll` (R402). -/
def execLdxAbs (w : Word) (s : State) : Ans :=
  .next (opLdx (.mem (.abs w)) (s.begin 4))

/-- $B6 `LDX $nn,Y` (R402). -/
def execLdxZpy (n : Byte) (s : State) : Ans :=
  .next (opLdx (.mem (.zpy n)) (s.begin 4))

/-- $BE `LDX $hhll,Y` (R402). -/
def execLdxAby (w : Word) (s : State) : Ans :=
  .next (opLdx (.mem (.aby w)) (s.begin 4))

/-- $A0 `LDY #$nn` (R403). -/
def execLdyImm (n : Byte) (s : State) : Ans :=
  .next (opLdy (.imm n) (s.begin 2))

/-- $A4 `LDY $nn` (R403). -/
def execLdyZp (n : Byte) (s : State) : Ans :=
  .next (opLdy (.mem (.zp n)) (s.begin 3))

/-- $AC `LDY $hhll` (R403). -/
def execLdyAbs (w : Word) (s : State) : Ans :=
  .next (opLdy (.mem (.abs w)) (s.begin 4))

/-- $B4 `LDY $nn,X` (R403). -/
def execLdyZpx (n : Byte) (s : State) : Ans :=
  .next (opLdy (.mem (.zpx n)) (s.begin 4))

/-- $BC `LDY $hhll,X` (R403). -/
def execLdyAbx (w : Word) (s : State) : Ans :=
  .next (opLdy (.mem (.abx w)) (s.begin 4))

/-- $81 `STA ($nn,X)` (R404). -/
def execStaIzx (n : Byte) (s : State) : Ans :=
  .next (opSta (.izx n) (s.begin 6))

/-- $85 `STA $nn` (R404). -/
def execStaZp (n : Byte) (s : State) : Ans :=
  .next (opSta (.zp n) (s.begin 3))

/-- $8D `STA $hhll` (R404). -/
def execStaAbs (w : Word) (s : State) : Ans :=
  .next (opSta (.abs w) (s.begin 4))

/-- $91 `STA ($nn),Y` (R404). -/
def execStaIzy (n : Byte) (s : State) : Ans :=
  .next (opSta (.izy n) (s.begin 6))

/-- $95 `STA $nn,X` (R404). -/
def execStaZpx (n : Byte) (s : State) : Ans :=
  .next (opSta (.zpx n) (s.begin 4))

/-- $99 `STA $hhll,Y` (R404). -/
def execStaAby (w : Word) (s : State) : Ans :=
  .next (opSta (.aby w) (s.begin 5))

/-- $9D `STA $hhll,X` (R404). -/
def execStaAbx (w : Word) (s : State) : Ans :=
  .next (opSta (.abx w) (s.begin 5))

/-- $86 `STX $nn` (R405). -/
def execStxZp (n : Byte) (s : State) : Ans :=
  .next (opStx (.zp n) (s.begin 3))

/-- $8E `STX $hhll` (R405). -/
def execStxAbs (w : Word) (s : State) : Ans :=
  .next (opStx (.abs w) (s.begin 4))

/-- $96 `STX $nn,Y` (R405). -/
def execStxZpy (n : Byte) (s : State) : Ans :=
  .next (opStx (.zpy n) (s.begin 4))

/-- $84 `STY $nn` (R406). -/
def execStyZp (n : Byte) (s : State) : Ans :=
  .next (opSty (.zp n) (s.begin 3))

/-- $8C `STY $hhll` (R406). -/
def execStyAbs (w : Word) (s : State) : Ans :=
  .next (opSty (.abs w) (s.begin 4))

/-- $94 `STY $nn,X` (R406). -/
def execStyZpx (n : Byte) (s : State) : Ans :=
  .next (opSty (.zpx n) (s.begin 4))

/-- $AA `TAX` (R407): `X <- A; SetNZ(X)`. -/
def execTax (s : State) : Ans :=
  let t := s.begin 2
  .next ((t.setX t.regs.a).setP (t.regs.p.setNZ t.regs.a))

/-- $A8 `TAY` (R408): `Y <- A; SetNZ(Y)`. -/
def execTay (s : State) : Ans :=
  let t := s.begin 2
  .next ((t.setY t.regs.a).setP (t.regs.p.setNZ t.regs.a))

/-- $8A `TXA` (R409): `A <- X; SetNZ(A)`. -/
def execTxa (s : State) : Ans :=
  let t := s.begin 2
  .next ((t.setA t.regs.x).setP (t.regs.p.setNZ t.regs.x))

/-- $98 `TYA` (R410): `A <- Y; SetNZ(A)`. -/
def execTya (s : State) : Ans :=
  let t := s.begin 2
  .next ((t.setA t.regs.y).setP (t.regs.p.setNZ t.regs.y))

/-- $BA `TSX` (R411): `X <- S; SetNZ(X)`. -/
def execTsx (s : State) : Ans :=
  let t := s.begin 2
  .next ((t.setX t.regs.sp).setP (t.regs.p.setNZ t.regs.sp))

/-- $9A `TXS` (R412): `S <- X`, no flag. -/
def execTxs (s : State) : Ans :=
  let t := s.begin 2
  .next (t.setSp t.regs.x)

end Sys2Proof.Machine
end

