-- ==== Sys2Proof/Machine/Logic.lean ====
section
/-! DEFINITION. The meanings of: Logical instructions, bit test, shifts and rotates (43_logic_shift.md R550 to R558). Each is one row of
spec/opcode_table.json: its mode, its base cycle count, its rule. PC is already past the instruction's bytes. -/

namespace Sys2Proof.Machine

/-- A logical instruction: `A <- f(A, M); SetNZ(A)`. -/
def opLogic (f : Byte → Byte → Byte) (o : ReadOp) (s : State) : State :=
  let r := o.get s
  (r.2.setA (f r.2.regs.a r.1)).setP (r.2.regs.p.setNZ (f r.2.regs.a r.1))

/-- AND (R551). -/
def opAnd (o : ReadOp) (s : State) : State := opLogic (· &&& ·) o s

/-- ORA (R552). -/
def opOra (o : ReadOp) (s : State) : State := opLogic (· ||| ·) o s

/-- EOR (R553). -/
def opEor (o : ReadOp) (s : State) : State := opLogic (· ^^^ ·) o s

/-- BIT (R554). -/
def opBit (o : ReadOp) (s : State) : State :=
  let r := o.get s
  r.2.setP (r.2.regs.p.bitTest r.2.regs.a r.1)

/-- ASL: C from bit 7 (R555). -/
def opAsl (o : ModOp) (s : State) : State :=
  let r := o.modify aslByte s
  r.2.setP (r.2.regs.p.afterShift (bitAt r.1 7) (aslByte r.1))

/-- LSR: C from bit 0 (R556). -/
def opLsr (o : ModOp) (s : State) : State :=
  let r := o.modify lsrByte s
  r.2.setP (r.2.regs.p.afterShift (bitAt r.1 0) (lsrByte r.1))

/-- ROL: computed with the old C, then C from bit 7 (R557). -/
def opRol (o : ModOp) (s : State) : State :=
  let r := o.modify (rolByte s.regs.p.c) s
  r.2.setP (r.2.regs.p.afterShift (bitAt r.1 7) (rolByte s.regs.p.c r.1))

/-- ROR: computed with the old C, then C from bit 0 (R558). -/
def opRor (o : ModOp) (s : State) : State :=
  let r := o.modify (rorByte s.regs.p.c) s
  r.2.setP (r.2.regs.p.afterShift (bitAt r.1 0) (rorByte s.regs.p.c r.1))

/-- $21 `AND ($nn,X)` (R551). -/
def execAndIzx (n : Byte) (s : State) : Ans :=
  .next (opAnd (.mem (.izx n)) (s.begin 6))

/-- $25 `AND $nn` (R551). -/
def execAndZp (n : Byte) (s : State) : Ans :=
  .next (opAnd (.mem (.zp n)) (s.begin 3))

/-- $29 `AND #$nn` (R551). -/
def execAndImm (n : Byte) (s : State) : Ans :=
  .next (opAnd (.imm n) (s.begin 2))

/-- $2D `AND $hhll` (R551). -/
def execAndAbs (w : Word) (s : State) : Ans :=
  .next (opAnd (.mem (.abs w)) (s.begin 4))

/-- $31 `AND ($nn),Y` (R551). -/
def execAndIzy (n : Byte) (s : State) : Ans :=
  .next (opAnd (.mem (.izy n)) (s.begin 5))

/-- $35 `AND $nn,X` (R551). -/
def execAndZpx (n : Byte) (s : State) : Ans :=
  .next (opAnd (.mem (.zpx n)) (s.begin 4))

/-- $39 `AND $hhll,Y` (R551). -/
def execAndAby (w : Word) (s : State) : Ans :=
  .next (opAnd (.mem (.aby w)) (s.begin 4))

/-- $3D `AND $hhll,X` (R551). -/
def execAndAbx (w : Word) (s : State) : Ans :=
  .next (opAnd (.mem (.abx w)) (s.begin 4))

/-- $01 `ORA ($nn,X)` (R552). -/
def execOraIzx (n : Byte) (s : State) : Ans :=
  .next (opOra (.mem (.izx n)) (s.begin 6))

/-- $05 `ORA $nn` (R552). -/
def execOraZp (n : Byte) (s : State) : Ans :=
  .next (opOra (.mem (.zp n)) (s.begin 3))

/-- $09 `ORA #$nn` (R552). -/
def execOraImm (n : Byte) (s : State) : Ans :=
  .next (opOra (.imm n) (s.begin 2))

/-- $0D `ORA $hhll` (R552). -/
def execOraAbs (w : Word) (s : State) : Ans :=
  .next (opOra (.mem (.abs w)) (s.begin 4))

/-- $11 `ORA ($nn),Y` (R552). -/
def execOraIzy (n : Byte) (s : State) : Ans :=
  .next (opOra (.mem (.izy n)) (s.begin 5))

/-- $15 `ORA $nn,X` (R552). -/
def execOraZpx (n : Byte) (s : State) : Ans :=
  .next (opOra (.mem (.zpx n)) (s.begin 4))

/-- $19 `ORA $hhll,Y` (R552). -/
def execOraAby (w : Word) (s : State) : Ans :=
  .next (opOra (.mem (.aby w)) (s.begin 4))

/-- $1D `ORA $hhll,X` (R552). -/
def execOraAbx (w : Word) (s : State) : Ans :=
  .next (opOra (.mem (.abx w)) (s.begin 4))

/-- $41 `EOR ($nn,X)` (R553). -/
def execEorIzx (n : Byte) (s : State) : Ans :=
  .next (opEor (.mem (.izx n)) (s.begin 6))

/-- $45 `EOR $nn` (R553). -/
def execEorZp (n : Byte) (s : State) : Ans :=
  .next (opEor (.mem (.zp n)) (s.begin 3))

/-- $49 `EOR #$nn` (R553). -/
def execEorImm (n : Byte) (s : State) : Ans :=
  .next (opEor (.imm n) (s.begin 2))

/-- $4D `EOR $hhll` (R553). -/
def execEorAbs (w : Word) (s : State) : Ans :=
  .next (opEor (.mem (.abs w)) (s.begin 4))

/-- $51 `EOR ($nn),Y` (R553). -/
def execEorIzy (n : Byte) (s : State) : Ans :=
  .next (opEor (.mem (.izy n)) (s.begin 5))

/-- $55 `EOR $nn,X` (R553). -/
def execEorZpx (n : Byte) (s : State) : Ans :=
  .next (opEor (.mem (.zpx n)) (s.begin 4))

/-- $59 `EOR $hhll,Y` (R553). -/
def execEorAby (w : Word) (s : State) : Ans :=
  .next (opEor (.mem (.aby w)) (s.begin 4))

/-- $5D `EOR $hhll,X` (R553). -/
def execEorAbx (w : Word) (s : State) : Ans :=
  .next (opEor (.mem (.abx w)) (s.begin 4))

/-- $24 `BIT $nn` (R554). -/
def execBitZp (n : Byte) (s : State) : Ans :=
  .next (opBit (.mem (.zp n)) (s.begin 3))

/-- $2C `BIT $hhll` (R554). -/
def execBitAbs (w : Word) (s : State) : Ans :=
  .next (opBit (.mem (.abs w)) (s.begin 4))

/-- $06 `ASL $nn` (R555). -/
def execAslZp (n : Byte) (s : State) : Ans :=
  .next (opAsl (.mem (.zp n)) (s.begin 5))

/-- $0A `ASL A` (R555). -/
def execAslAcc (s : State) : Ans :=
  .next (opAsl .acc (s.begin 2))

/-- $0E `ASL $hhll` (R555). -/
def execAslAbs (w : Word) (s : State) : Ans :=
  .next (opAsl (.mem (.abs w)) (s.begin 6))

/-- $16 `ASL $nn,X` (R555). -/
def execAslZpx (n : Byte) (s : State) : Ans :=
  .next (opAsl (.mem (.zpx n)) (s.begin 6))

/-- $1E `ASL $hhll,X` (R555). -/
def execAslAbx (w : Word) (s : State) : Ans :=
  .next (opAsl (.mem (.abx w)) (s.begin 7))

/-- $46 `LSR $nn` (R556). -/
def execLsrZp (n : Byte) (s : State) : Ans :=
  .next (opLsr (.mem (.zp n)) (s.begin 5))

/-- $4A `LSR A` (R556). -/
def execLsrAcc (s : State) : Ans :=
  .next (opLsr .acc (s.begin 2))

/-- $4E `LSR $hhll` (R556). -/
def execLsrAbs (w : Word) (s : State) : Ans :=
  .next (opLsr (.mem (.abs w)) (s.begin 6))

/-- $56 `LSR $nn,X` (R556). -/
def execLsrZpx (n : Byte) (s : State) : Ans :=
  .next (opLsr (.mem (.zpx n)) (s.begin 6))

/-- $5E `LSR $hhll,X` (R556). -/
def execLsrAbx (w : Word) (s : State) : Ans :=
  .next (opLsr (.mem (.abx w)) (s.begin 7))

/-- $26 `ROL $nn` (R557). -/
def execRolZp (n : Byte) (s : State) : Ans :=
  .next (opRol (.mem (.zp n)) (s.begin 5))

/-- $2A `ROL A` (R557). -/
def execRolAcc (s : State) : Ans :=
  .next (opRol .acc (s.begin 2))

/-- $2E `ROL $hhll` (R557). -/
def execRolAbs (w : Word) (s : State) : Ans :=
  .next (opRol (.mem (.abs w)) (s.begin 6))

/-- $36 `ROL $nn,X` (R557). -/
def execRolZpx (n : Byte) (s : State) : Ans :=
  .next (opRol (.mem (.zpx n)) (s.begin 6))

/-- $3E `ROL $hhll,X` (R557). -/
def execRolAbx (w : Word) (s : State) : Ans :=
  .next (opRol (.mem (.abx w)) (s.begin 7))

/-- $66 `ROR $nn` (R558). -/
def execRorZp (n : Byte) (s : State) : Ans :=
  .next (opRor (.mem (.zp n)) (s.begin 5))

/-- $6A `ROR A` (R558). -/
def execRorAcc (s : State) : Ans :=
  .next (opRor .acc (s.begin 2))

/-- $6E `ROR $hhll` (R558). -/
def execRorAbs (w : Word) (s : State) : Ans :=
  .next (opRor (.mem (.abs w)) (s.begin 6))

/-- $76 `ROR $nn,X` (R558). -/
def execRorZpx (n : Byte) (s : State) : Ans :=
  .next (opRor (.mem (.zpx n)) (s.begin 6))

/-- $7E `ROR $hhll,X` (R558). -/
def execRorAbx (w : Word) (s : State) : Ans :=
  .next (opRor (.mem (.abx w)) (s.begin 7))

end Sys2Proof.Machine
end

