-- ==== Sys2Proof/Machine/Stack.lean ====
section
/-! DEFINITION. The meanings of: Stack instructions (41_stack.md R450 to R454). Each is one row of
spec/opcode_table.json: its mode, its base cycle count, its rule. PC is already past the instruction's bytes. -/

namespace Sys2Proof.Machine

/-- $48 `PHA` (R451): `Push(A)`. -/
def execPha (s : State) : Ans :=
  let t := s.begin 3
  .next (push t.regs.a t)

/-- $08 `PHP` (R452): `Push(PushedP(1))`. -/
def execPhp (s : State) : Ans :=
  let t := s.begin 3
  .next (push (t.regs.p.pushed true) t)

/-- $68 `PLA` (R453): `A <- Pull(); SetNZ(A)`. -/
def execPla (s : State) : Ans :=
  let t := s.begin 4
  .next ((((pull t).2.setA (pull t).1).setP ((pull t).2.regs.p.setNZ (pull t).1)))

/-- $28 `PLP` (R454): `LoadP(Pull())`. -/
def execPlp (s : State) : Ans :=
  let t := s.begin 4
  .next ((pull t).2.setP (Flags.ofByte (pull t).1))

end Sys2Proof.Machine
end

