-- ==== Sys2Proof/Machine/Dispatch.lean ====
section
/-! DEFINITION. One arm for each constructor of `Instr`, each one direct call of its meaning. -/

namespace Sys2Proof.Machine

def exec (i : Instr) (s : State) : Host.Outcome State Fault Refusal :=
  match i with
  -- 40_load_store_transfer.md
  | .ldaIzx n => Sys2Proof.Machine.execLdaIzx n s
  | .ldaZp n => Sys2Proof.Machine.execLdaZp n s
  | .ldaImm n => Sys2Proof.Machine.execLdaImm n s
  | .ldaAbs w => Sys2Proof.Machine.execLdaAbs w s
  | .ldaIzy n => Sys2Proof.Machine.execLdaIzy n s
  | .ldaZpx n => Sys2Proof.Machine.execLdaZpx n s
  | .ldaAby w => Sys2Proof.Machine.execLdaAby w s
  | .ldaAbx w => Sys2Proof.Machine.execLdaAbx w s
  | .ldxImm n => Sys2Proof.Machine.execLdxImm n s
  | .ldxZp n => Sys2Proof.Machine.execLdxZp n s
  | .ldxAbs w => Sys2Proof.Machine.execLdxAbs w s
  | .ldxZpy n => Sys2Proof.Machine.execLdxZpy n s
  | .ldxAby w => Sys2Proof.Machine.execLdxAby w s
  | .ldyImm n => Sys2Proof.Machine.execLdyImm n s
  | .ldyZp n => Sys2Proof.Machine.execLdyZp n s
  | .ldyAbs w => Sys2Proof.Machine.execLdyAbs w s
  | .ldyZpx n => Sys2Proof.Machine.execLdyZpx n s
  | .ldyAbx w => Sys2Proof.Machine.execLdyAbx w s
  | .staIzx n => Sys2Proof.Machine.execStaIzx n s
  | .staZp n => Sys2Proof.Machine.execStaZp n s
  | .staAbs w => Sys2Proof.Machine.execStaAbs w s
  | .staIzy n => Sys2Proof.Machine.execStaIzy n s
  | .staZpx n => Sys2Proof.Machine.execStaZpx n s
  | .staAby w => Sys2Proof.Machine.execStaAby w s
  | .staAbx w => Sys2Proof.Machine.execStaAbx w s
  | .stxZp n => Sys2Proof.Machine.execStxZp n s
  | .stxAbs w => Sys2Proof.Machine.execStxAbs w s
  | .stxZpy n => Sys2Proof.Machine.execStxZpy n s
  | .styZp n => Sys2Proof.Machine.execStyZp n s
  | .styAbs w => Sys2Proof.Machine.execStyAbs w s
  | .styZpx n => Sys2Proof.Machine.execStyZpx n s
  | .tax => Sys2Proof.Machine.execTax s
  | .tay => Sys2Proof.Machine.execTay s
  | .txa => Sys2Proof.Machine.execTxa s
  | .tya => Sys2Proof.Machine.execTya s
  | .tsx => Sys2Proof.Machine.execTsx s
  | .txs => Sys2Proof.Machine.execTxs s
  -- 41_stack.md
  | .pha => Sys2Proof.Machine.execPha s
  | .php => Sys2Proof.Machine.execPhp s
  | .pla => Sys2Proof.Machine.execPla s
  | .plp => Sys2Proof.Machine.execPlp s
  -- 42_arithmetic.md
  | .adcIzx n => Sys2Proof.Machine.execAdcIzx n s
  | .adcZp n => Sys2Proof.Machine.execAdcZp n s
  | .adcImm n => Sys2Proof.Machine.execAdcImm n s
  | .adcAbs w => Sys2Proof.Machine.execAdcAbs w s
  | .adcIzy n => Sys2Proof.Machine.execAdcIzy n s
  | .adcZpx n => Sys2Proof.Machine.execAdcZpx n s
  | .adcAby w => Sys2Proof.Machine.execAdcAby w s
  | .adcAbx w => Sys2Proof.Machine.execAdcAbx w s
  | .sbcIzx n => Sys2Proof.Machine.execSbcIzx n s
  | .sbcZp n => Sys2Proof.Machine.execSbcZp n s
  | .sbcImm n => Sys2Proof.Machine.execSbcImm n s
  | .sbcAbs w => Sys2Proof.Machine.execSbcAbs w s
  | .sbcIzy n => Sys2Proof.Machine.execSbcIzy n s
  | .sbcZpx n => Sys2Proof.Machine.execSbcZpx n s
  | .sbcAby w => Sys2Proof.Machine.execSbcAby w s
  | .sbcAbx w => Sys2Proof.Machine.execSbcAbx w s
  | .cmpIzx n => Sys2Proof.Machine.execCmpIzx n s
  | .cmpZp n => Sys2Proof.Machine.execCmpZp n s
  | .cmpImm n => Sys2Proof.Machine.execCmpImm n s
  | .cmpAbs w => Sys2Proof.Machine.execCmpAbs w s
  | .cmpIzy n => Sys2Proof.Machine.execCmpIzy n s
  | .cmpZpx n => Sys2Proof.Machine.execCmpZpx n s
  | .cmpAby w => Sys2Proof.Machine.execCmpAby w s
  | .cmpAbx w => Sys2Proof.Machine.execCmpAbx w s
  | .cpxImm n => Sys2Proof.Machine.execCpxImm n s
  | .cpxZp n => Sys2Proof.Machine.execCpxZp n s
  | .cpxAbs w => Sys2Proof.Machine.execCpxAbs w s
  | .cpyImm n => Sys2Proof.Machine.execCpyImm n s
  | .cpyZp n => Sys2Proof.Machine.execCpyZp n s
  | .cpyAbs w => Sys2Proof.Machine.execCpyAbs w s
  | .incZp n => Sys2Proof.Machine.execIncZp n s
  | .incAbs w => Sys2Proof.Machine.execIncAbs w s
  | .incZpx n => Sys2Proof.Machine.execIncZpx n s
  | .incAbx w => Sys2Proof.Machine.execIncAbx w s
  | .decZp n => Sys2Proof.Machine.execDecZp n s
  | .decAbs w => Sys2Proof.Machine.execDecAbs w s
  | .decZpx n => Sys2Proof.Machine.execDecZpx n s
  | .decAbx w => Sys2Proof.Machine.execDecAbx w s
  | .inx => Sys2Proof.Machine.execInx s
  | .iny => Sys2Proof.Machine.execIny s
  | .dex => Sys2Proof.Machine.execDex s
  | .dey => Sys2Proof.Machine.execDey s
  -- 43_logic_shift.md
  | .andIzx n => Sys2Proof.Machine.execAndIzx n s
  | .andZp n => Sys2Proof.Machine.execAndZp n s
  | .andImm n => Sys2Proof.Machine.execAndImm n s
  | .andAbs w => Sys2Proof.Machine.execAndAbs w s
  | .andIzy n => Sys2Proof.Machine.execAndIzy n s
  | .andZpx n => Sys2Proof.Machine.execAndZpx n s
  | .andAby w => Sys2Proof.Machine.execAndAby w s
  | .andAbx w => Sys2Proof.Machine.execAndAbx w s
  | .oraIzx n => Sys2Proof.Machine.execOraIzx n s
  | .oraZp n => Sys2Proof.Machine.execOraZp n s
  | .oraImm n => Sys2Proof.Machine.execOraImm n s
  | .oraAbs w => Sys2Proof.Machine.execOraAbs w s
  | .oraIzy n => Sys2Proof.Machine.execOraIzy n s
  | .oraZpx n => Sys2Proof.Machine.execOraZpx n s
  | .oraAby w => Sys2Proof.Machine.execOraAby w s
  | .oraAbx w => Sys2Proof.Machine.execOraAbx w s
  | .eorIzx n => Sys2Proof.Machine.execEorIzx n s
  | .eorZp n => Sys2Proof.Machine.execEorZp n s
  | .eorImm n => Sys2Proof.Machine.execEorImm n s
  | .eorAbs w => Sys2Proof.Machine.execEorAbs w s
  | .eorIzy n => Sys2Proof.Machine.execEorIzy n s
  | .eorZpx n => Sys2Proof.Machine.execEorZpx n s
  | .eorAby w => Sys2Proof.Machine.execEorAby w s
  | .eorAbx w => Sys2Proof.Machine.execEorAbx w s
  | .bitZp n => Sys2Proof.Machine.execBitZp n s
  | .bitAbs w => Sys2Proof.Machine.execBitAbs w s
  | .aslZp n => Sys2Proof.Machine.execAslZp n s
  | .aslAcc => Sys2Proof.Machine.execAslAcc s
  | .aslAbs w => Sys2Proof.Machine.execAslAbs w s
  | .aslZpx n => Sys2Proof.Machine.execAslZpx n s
  | .aslAbx w => Sys2Proof.Machine.execAslAbx w s
  | .lsrZp n => Sys2Proof.Machine.execLsrZp n s
  | .lsrAcc => Sys2Proof.Machine.execLsrAcc s
  | .lsrAbs w => Sys2Proof.Machine.execLsrAbs w s
  | .lsrZpx n => Sys2Proof.Machine.execLsrZpx n s
  | .lsrAbx w => Sys2Proof.Machine.execLsrAbx w s
  | .rolZp n => Sys2Proof.Machine.execRolZp n s
  | .rolAcc => Sys2Proof.Machine.execRolAcc s
  | .rolAbs w => Sys2Proof.Machine.execRolAbs w s
  | .rolZpx n => Sys2Proof.Machine.execRolZpx n s
  | .rolAbx w => Sys2Proof.Machine.execRolAbx w s
  | .rorZp n => Sys2Proof.Machine.execRorZp n s
  | .rorAcc => Sys2Proof.Machine.execRorAcc s
  | .rorAbs w => Sys2Proof.Machine.execRorAbs w s
  | .rorZpx n => Sys2Proof.Machine.execRorZpx n s
  | .rorAbx w => Sys2Proof.Machine.execRorAbx w s
  -- 44_control.md
  | .bcc n => Sys2Proof.Machine.execBcc n s
  | .bcs n => Sys2Proof.Machine.execBcs n s
  | .beq n => Sys2Proof.Machine.execBeq n s
  | .bne n => Sys2Proof.Machine.execBne n s
  | .bmi n => Sys2Proof.Machine.execBmi n s
  | .bpl n => Sys2Proof.Machine.execBpl n s
  | .bvc n => Sys2Proof.Machine.execBvc n s
  | .bvs n => Sys2Proof.Machine.execBvs n s
  | .jmpAbs w => Sys2Proof.Machine.execJmpAbs w s
  | .jmpInd w => Sys2Proof.Machine.execJmpInd w s
  | .jsr w => Sys2Proof.Machine.execJsr w s
  | .rts => Sys2Proof.Machine.execRts s
  | .brk => Sys2Proof.Machine.execBrk s
  | .rti => Sys2Proof.Machine.execRti s
  -- 45_flags_misc.md
  | .clc => Sys2Proof.Machine.execClc s
  | .sec => Sys2Proof.Machine.execSec s
  | .cli => Sys2Proof.Machine.execCli s
  | .sei => Sys2Proof.Machine.execSei s
  | .cld => Sys2Proof.Machine.execCld s
  | .sed => Sys2Proof.Machine.execSed s
  | .clv => Sys2Proof.Machine.execClv s
  | .nop => Sys2Proof.Machine.execNop s

end Sys2Proof.Machine
end

