-- ==== Sys2Proof/Machine/Fetch.lean ====
section
/-! DEFINITION. The start of a CPU step: polling (60_exceptions.md R732), fetching and decoding one instruction
(30_encoding.md R301, R339, R340), raising the illegal-opcode fault (60_exceptions.md R710). -/

namespace Sys2Proof.Machine

/-- What the poll at the start of a step decides (R732, R733, R1000). -/
inductive Poll where
  | faulted (f : IllegalOp)
  | nmi
  | irq
  | instruction
  deriving DecidableEq, Repr

/-- The polling order: fault, NMI, IRQ unless masked, instruction (R732). -/
def State.poll (s : State) : Poll :=
  match s.ctl.fault with
  | some f => .faulted f
  | none => if s.ctl.nmiPending then .nmi else if s.irqLine && !s.regs.p.i then .irq else .instruction

/-- The start of a step that reports no fault: `instr_pc <- PC`, `instr_cycle <- cycles_total` (R1000), no cycle counted
yet. -/
def State.startStep (s : State) : State :=
  { s with
    ctl :=
      { s.ctl with instrPc := s.regs.pc, instrCycle := s.ctl.cyclesTotal, stepCycles := 0, stepBase := 0 } }

/-- The owed stall is added to the step's count and cleared (R143, R1010). -/
def State.payStall (s : State) : State :=
  { s with ctl := { s.ctl with stepCycles := s.ctl.stepCycles + s.ctl.stallCycles, stallCycles := 0 } }

/-- `nmi_pending` is cleared when the CPU starts NMI entry (R141, R732). -/
def State.clearNmi (s : State) : State := { s with ctl := { s.ctl with nmiPending := false } }

/-- The NMI entry, as far as the CPU step goes (R720, R732). -/
def nmiStep (s : State) : State := interruptEntry nmiVector s.startStep.payStall.clearNmi

/-- The IRQ entry, as far as the CPU step goes (R720, R732). -/
def irqStep (s : State) : State := interruptEntry irqVector s.startStep.payStall

/-- What fetching at PC gives: an instruction with PC past its bytes, or an illegal opcode with PC on it. -/
inductive Fetched where
  | ok (i : Instr) (s : State)
  | illegal (f : IllegalOp) (s : State)
  deriving DecidableEq, Repr

/-- The decode sequence (R301, R339, R340): the opcode byte, then the operand bytes its format has, each by the bus. -/
def fetchInstr (s : State) : Fetched :=
  let op := busRead s.regs.pc s
  let s1 := op.2.setPc (op.2.regs.pc + 1)
  match formOf op.1.toNat with
  | none => .illegal { op := op.1, addr := s.regs.pc } op.2
  | some (.f1 i) => .ok i s1
  | some (.f2 mk) => .ok (mk (fetch s1).1) (fetch s1).2
  | some (.f3 mk) => .ok (mk (wordOf (fetch (fetch s1).2).1 (fetch s1).1)) (fetch (fetch s1).2).2

/-- The fault register is set and the step's result is the fault; no cycle is consumed and the owed stall stays (R340,
R710, R1010). -/
def State.raise (s : State) (f : IllegalOp) : State :=
  { s with ctl := { s.ctl with fault := some f, lastResult := .fault f } }

end Sys2Proof.Machine
end

