-- ==== Sys2Proof/Machine/Orchestrator.lean ====
section
/-! DEFINITION. The orchestrator's tick loop (70_reset_and_hazards.md R1001): for each CPU cycle of a step three PPU ticks,
each followed by the NMI evaluation, then one APU tick. -/

namespace Sys2Proof.Machine

/-- One PPU tick and the NMI evaluation after it (R730, R830, R1001). -/
def ppuTick (s : State) : State := s.setPpu (s.ppu.tick s.cart)

/-- CPU cycles a DMC sample fetch costs (00_scope.md R8 `DMC_STALL`). -/
def dmcStall : Nat := 4

/-- The DMC memory reader (62_apu.md R962), its transaction made in the CPU cycle `cycle`. -/
def dmcReader (cycle : Nat) (s : State) : State :=
  if s.apu.dmc.wantsByte then
    let r := busReadAt cycle s.apu.dmc.curAddr s
    { r.2 with
      apu := r.2.apu.takeByte r.1
      ctl := { r.2.ctl with stallCycles := r.2.ctl.stallCycles + dmcStall } }
  else s

/-- One APU tick (62_apu.md R901). -/
def apuTick (cycle : Nat) (s : State) : State :=
  let t := dmcReader cycle { s with apu := s.apu.tickUnits }
  { t with apu := t.apu.tickEnd }

/-- The devices' part of CPU cycle k of a step (R1001). -/
def deviceCycle (k : Nat) (s : State) : State :=
  apuTick (s.ctl.cyclesTotal + k) (ppuTick (ppuTick (ppuTick s)))

/-- The tick loop over `left` CPU cycles from cycle k on (R1001). -/
def deviceCycles (left k : Nat) (s : State) : State :=
  match left with
  | 0 => s
  | n + 1 => deviceCycles n (k + 1) (deviceCycle k s)

/-- Steps 2 to 4 of `machine_step()` (R1001): the tick loop over the step's cycles, the cycle counter, the result. -/
def finishStep (result : Nat → StepResult) (s : State) : State :=
  let t := deviceCycles s.ctl.stepCycles 0 s
  { t with
    ctl :=
      { t.ctl with
        cyclesTotal := t.ctl.cyclesTotal + s.ctl.stepCycles
        lastResult := result s.ctl.stepCycles } }

end Sys2Proof.Machine
end

