-- ==== Sys2Proof/Machine/Place.lean ====
section
/-! DEFINITION. Placing an instruction's bytes where the next step fetches them: the load of a program from outside the
machine (log 1), for a machine in any state. -/

namespace Sys2Proof.Machine

/-- Whether an address is storage of the machine: internal RAM, PRG RAM or PRG ROM (20_memory.md R210, R226). -/
def isStorage (a : Word) : Bool := decide (a.toNat < 0x2000) || decide (0x6000 ≤ a.toNat)

/-- Puts a byte into the storage an address reaches; an address that is no storage keeps nothing. -/
def State.poke (s : State) (a : Word) (b : Byte) : State :=
  if a.toNat < 0x2000 then { s with ram := Store.write s.ram (ramIndex a) b }
  else if a.toNat < 0x6000 then s
  else if a.toNat < 0x8000 then { s with cart := { s.cart with prgRam := Store.write s.cart.prgRam (a.toNat - 0x6000) b } }
  else { s with cart := { s.cart with prgRom := Store.write s.cart.prgRom (s.cart.mapCpu a.toNat) b } }

/-- The address to fetch from: PC, if the three bytes there are storage; else the RAM address $0200, since no byte can be
placed in a device's window. -/
def State.placeAt (s : State) : Word :=
  if isStorage s.regs.pc && isStorage (s.regs.pc + 1) && isStorage (s.regs.pc + 2) then s.regs.pc else 0x0200

/-- The interrupt sources and the fault register quiet, so that the next step is an instruction (R732). -/
def State.quiet (s : State) : State :=
  { s with
    ctl := { s.ctl with fault := none, nmiPending := false }
    apu := { s.apu with frameIrq := s.apu.frameIrq && s.regs.p.i, dmcIrq := s.apu.dmcIrq && s.regs.p.i }
    inputs := { s.inputs with extIrq := s.inputs.extIrq && s.regs.p.i } }

/-- Three bytes placed from an address on. -/
def State.poke3 (s : State) (a : Word) (b0 b1 b2 : Byte) : State :=
  ((s.poke a b0).poke (a + 1) b1).poke (a + 2) b2

/-- The machine with the table word `w` of `nbits` bits where the next step fetches. -/
def State.placeWord (s : State) (nbits w : Nat) : State :=
  let bs := tableBytes nbits w
  ((s.quiet).poke3 s.placeAt (bs.getD 0 0) (bs.getD 1 0) (bs.getD 2 0)).setPc s.placeAt

end Sys2Proof.Machine
end

