-- ==== Sys2Proof/Machine/Step.lean ====
section
/-! DEFINITION. One machine step, `machine_step()` (70_reset_and_hazards.md R1000 to R1002): the CPU step the poll decides,
then the tick loop. -/

namespace Sys2Proof.Machine

/-- The step that executes one instruction (R339, R1001): fetch, then the meaning with the owed stall counted, then the
tick loop; an illegal opcode raises the fault instead and takes no cycle (R340, R710). -/
def instructionStep (s : State) : Host.Outcome State Fault Refusal :=
  match fetchInstr s.startStep with
  | .illegal f t => .next (t.raise f)
  | .ok i t =>
    match exec i t.payStall with
    | .next u => .next (finishStep .instruction u)
    | .fault f => .fault f
    | .refused r => .refused r

/-- One step of the machine. While the fault register is set it reports the fault and changes nothing (R711). -/
def step (s : State) : Host.Outcome State Fault Refusal :=
  match s.poll with
  | .faulted f => .fault (.illegalOpcode f.op f.addr)
  | .nmi => .next (finishStep (.interrupt .nmi) (nmiStep s))
  | .irq => .next (finishStep (.interrupt .irq) (irqStep s))
  | .instruction => instructionStep s

/-- The instruction of a table word stored where `step` fetches its next instruction (log 1). -/
def State.withFetchWord (s : State) (nbits w : Nat) : State := s.placeWord nbits w

end Sys2Proof.Machine
end

