-- ==== Sys2Proof/Machine/HostOps.lean ====
section
/-! DEFINITION. The caller's operations between steps (70_reset_and_hazards.md R1003, R1045, R1050): the input setters, the
accessors, `step_frame()`, the detection of a normal end. `step_instruction()` is `step`, `reset()` is `resetOp`, `load` is
`loadImage`. -/

namespace Sys2Proof.Machine

/-- `set_buttons(1, b)` (R760). -/
def State.setButtons1 (s : State) (b : Byte) : State := { s with inputs := { s.inputs with buttons1 := b } }

/-- `set_buttons(2, b)` (R760). -/
def State.setButtons2 (s : State) (b : Byte) : State := { s with inputs := { s.inputs with buttons2 := b } }

/-- `set_ext_irq(level)` (R731). -/
def State.setExtIrq (s : State) (level : Bool) : State := { s with inputs := { s.inputs with extIrq := level } }

/-- `frame_buffer()`: the entry of row r, column c (R880). -/
def State.frameBuffer (s : State) (r c : Nat) : BitVec 9 := Store.read s.ppu.fb (fbKey r c)

/-- `take_samples()`: the samples in the order they were made, and the machine with its buffer empty (R980). -/
def State.takeSamples (s : State) : List Rat × State :=
  (s.apu.samples.reverse, { s with apu := { s.apu with samples := [] } })

/-- The events delivered so far, in order (R261). -/
def State.events (s : State) : List BusEvent := s.trace.reverse

/-- What `step_frame()` returns: the frame counter, the fault, or that the given number of steps did not suffice. -/
inductive FrameResult where
  | frame (k : Nat) (s : State)
  | fault (f : IllegalOp) (s : State)
  | unfinished (s : State)
  deriving DecidableEq, Repr

/-- `step_frame()` from frame counter `f0`, over at most `fuel` steps (R1003): it ends in the step that changes the frame
counter or reports a fault. -/
def stepFrameFrom (f0 fuel : Nat) (s : State) : FrameResult :=
  match fuel with
  | 0 => .unfinished s
  | k + 1 =>
    match s.ctl.fault with
    | some f => .fault f s
    | none =>
      match step s with
      | .next t =>
        match t.ctl.fault with
        | some f => .fault f t
        | none => if t.ppu.frame ≠ f0 then .frame t.ppu.frame t else stepFrameFrom f0 k t
      | .fault _ => .unfinished s
      | .refused _ => .unfinished s

/-- `step_frame()` (R1003) over at most `fuel` steps; every step takes at least two cycles, so 15000 suffice. -/
def stepFrame (fuel : Nat) (s : State) : FrameResult := stepFrameFrom s.ppu.frame fuel s

/-- The byte a read of a storage address gives, without the bus transaction (20_memory.md R212, R226). -/
def State.peek (s : State) (a : Word) : Byte := (readRegion a s).1

/-- A step starts at an absolute JMP to its own address, the sign by which a test program ends (R1050). -/
def State.atSelfJump (s : State) : Bool :=
  s.peek s.regs.pc == 0x4C && s.peek (s.regs.pc + 1) == loByte s.regs.pc && s.peek (s.regs.pc + 2) == hiByte s.regs.pc

/-- No interrupt can be taken from here on unless the program or the caller changes something: none is pending as an NMI, the PPU's
NMI enable is off, and IRQs are masked (60_exceptions.md R730 to R732). -/
def State.interruptsOff (s : State) : Bool := !s.ctl.nmiPending && !bitAt s.ppu.ctrl 7 && s.regs.p.i

/-- What the caller can say of a run at the start of a step (R1050). -/
inductive RunStatus where
  | running
  | normalEnd
  /-- At a self jump with an interrupt enabled or pending: the program waits and has not ended. A caller that stops here
  stopped at a fixed point of the loop. -/
  | waiting
  /-- The fault register is set: an error end, never a normal one. -/
  | errorEnd (f : IllegalOp)
  deriving DecidableEq, Repr

/-- The status of a run (R1050). What counts as an interrupt enabled is log 17. -/
def State.runStatus (s : State) : RunStatus :=
  match s.ctl.fault with
  | some f => .errorEnd f
  | none => if s.atSelfJump then (if s.interruptsOff then .normalEnd else .waiting) else .running

end Sys2Proof.Machine
end

