-- ==== Sys2Proof/Machine/Frames.lean ====
section
/-! DEFINITION. The vocabulary of the statements about instructions: what a bus read can change, what a bus write stores and
leaves, which bytes are one cell, and the rows of the opcode table with their operands. -/

namespace Sys2Proof.Machine

/-- Two addresses that reach the same byte of storage: equal, or mirrors of one RAM byte (20_memory.md R212). -/
def SameCell (a b : Word) : Prop :=
  a = b ∨ (a.toNat < 0x2000 ∧ b.toNat < 0x2000 ∧ a.toNat % 0x800 = b.toNat % 0x800)

/-- `t` is `s` after CPU-bus reads only: registers apart, nothing changed but the bus latch and the trace, the step's own cycle
count, and the latches whose reads have side effects, those of $2002, $2007, $4015, $4016 and $4017 and the PPU's `io_latch`
(20_memory.md R205; 61_ppu.md R812, R817, R819; 62_apu.md R921; 60_exceptions.md R762). No memory changes. -/
structure OnlyReads (s t : State) : Prop where
  ctl : t.ctl = { s.ctl with stepCycles := t.ctl.stepCycles, stepBase := t.ctl.stepBase }
  ram : t.ram = s.ram
  cart : t.cart = s.cart
  ppu : t.ppu =
    { s.ppu with
      vblank := t.ppu.vblank, w := t.ppu.w, readBuffer := t.ppu.readBuffer, v := t.ppu.v, ioLatch := t.ppu.ioLatch }
  apu : t.apu = { s.apu with frameIrq := t.apu.frameIrq }
  pads : t.pads =
    { s.pads with
      shift1 := t.pads.shift1, shift2 := t.pads.shift2, index1 := t.pads.index1, index2 := t.pads.index2 }
  inputs : t.inputs = s.inputs

/-- Whether a CPU-bus read of an address can change a device: the PPU's registers, $4015, $4016 and $4017. Every other read has
no side effect (20_memory.md R205). -/
def readsDevice (a : Word) : Bool :=
  decide (0x2000 ≤ a.toNat ∧ a.toNat < 0x4000) || decide (0x4015 ≤ a.toNat ∧ a.toNat < 0x4018)

/-- The three devices are the same in `t` as in `s`. -/
structure SameDevices (s t : State) : Prop where
  ppu : t.ppu = s.ppu
  apu : t.apu = s.apu
  pads : t.pads = s.pads

/-- Two PPU addresses that reach the same byte: of CHR under the mapper's translation, of VRAM under the mirroring, or of the
palette under its mirrors (20_memory.md R223, R241, R242). -/
def SamePpuCell (c : Cart) (a b : Nat) : Prop :=
  (a < 0x2000 ∧ b < 0x2000 ∧ c.mapPpu a = c.mapPpu b) ∨
  ((0x2000 ≤ a ∧ a < 0x3F00) ∧ (0x2000 ≤ b ∧ b < 0x3F00) ∧ vramIndex c.mirroring a = vramIndex c.mirroring b) ∨
  (0x3F00 ≤ a ∧ 0x3F00 ≤ b ∧ paletteIndex a = paletteIndex b)

/-- `t` is `s` after the CPU-bus write of `v` to `a`, registers apart: the byte stored, the device or mapper register written,
every other byte of storage as before (20_memory.md R201, R210 to R217, R227). The bytes are read with `peek`. For
a = $4014 the OAM DMA that follows is not described here, but for what it leaves alone (60_exceptions.md R770). -/
structure StoredAt (a : Word) (v : Byte) (s t : State) : Prop where
  ctl : t.ctl =
    { s.ctl with
      stepCycles := t.ctl.stepCycles, stepBase := t.ctl.stepBase, nmiPending := t.ctl.nmiPending }
  inputs : t.inputs = s.inputs
  /-- ROM, and everything that is fixed for the life of the cartridge. -/
  fixed : t.cart.prgRom = s.cart.prgRom ∧ t.cart.prgBanks = s.cart.prgBanks ∧ t.cart.chrBanks = s.cart.chrBanks ∧
    t.cart.mirroring = s.cart.mirroring ∧ t.cart.mapper = s.cart.mapper
  /-- The stored byte of internal RAM or PRG RAM. -/
  value : a.toNat < 0x2000 ∨ (0x6000 ≤ a.toNat ∧ a.toNat < 0x8000) → t.peek a = v
  /-- Every other byte of internal RAM and PRG RAM. -/
  others : ∀ b : Word, b.toNat < 0x2000 ∨ (0x6000 ≤ b.toNat ∧ b.toNat < 0x8000) → ¬ SameCell b a → t.peek b = s.peek b
  /-- The bytes the mapper shows, unless the write reaches the mapper. -/
  rom : a.toNat < 0x8000 → ∀ b : Word, 0x8000 ≤ b.toNat → t.peek b = s.peek b
  /-- The mapper's bank registers move only by a write to ROM. -/
  banks : a.toNat < 0x8000 → t.cart.prgSel = s.cart.prgSel ∧ t.cart.chrSel = s.cart.chrSel
  /-- A write to ROM reaches only the mapper's registers. -/
  mapper : 0x8000 ≤ a.toNat → t.cart = s.cart.onCpuWrite v
  /-- Storage and unused addresses touch no device. -/
  devices : a.toNat < 0x2000 ∨ 0x4018 ≤ a.toNat → t.ppu = s.ppu ∧ t.apu = s.apu ∧ t.pads = s.pads
  nmi : ¬ (0x2000 ≤ a.toNat ∧ a.toNat < 0x4000) → t.ctl.nmiPending = s.ctl.nmiPending
  /-- CHR changes only by a write through PPUDATA. -/
  chr : ¬ (0x2000 ≤ a.toNat ∧ a.toNat < 0x4000) → t.cart.chr = s.cart.chr
  ppuReg : 0x2000 ≤ a.toNat ∧ a.toNat < 0x4000 →
    t.ppu = (s.ppu.writeReg s.cart (a.toNat % 8) v).2 ∧ t.cart = (s.ppu.writeReg s.cart (a.toNat % 8) v).1 ∧
      t.apu = s.apu ∧ t.pads = s.pads
  apuReg : 0x4000 ≤ a.toNat ∧ a.toNat < 0x4014 →
    t.apu = s.apu.writeReg (a.toNat - 0x4000) v ∧ t.ppu = s.ppu ∧ t.pads = s.pads
  apuEnable : a.toNat = 0x4015 → t.apu = s.apu.writeEnable v ∧ t.ppu = s.ppu ∧ t.pads = s.pads
  strobe : a.toNat = 0x4016 → t.pads = s.pads.writeStrobe s.inputs v ∧ t.ppu = s.ppu ∧ t.apu = s.apu
  frameCounter : a.toNat = 0x4017 → t.apu = s.apu.writeFrameCounter v ∧ t.ppu = s.ppu ∧ t.pads = s.pads
  /-- One write event, and the latch, but for OAM DMA. -/
  event : a ≠ 0x4014 → t.busLatch = v ∧ t.ctl.stepCycles = s.ctl.stepCycles ∧ t.ctl.stepBase = s.ctl.stepBase ∧
    ∃ e : BusEvent, e.address = a ∧ e.value = v ∧ e.kind = .write ∧ e.cycle = s.ctl.instrCycle ∧
      e.programCounter = s.ctl.instrPc ∧ e.snapshot = (s.inputs.buttons1, s.inputs.buttons2) ∧
      e.frame = s.ppu.frame ∧ t.trace = e :: s.trace

/-! ### The rows of the opcode table -/

/-- A read-class row: the instruction, its opcode byte, its operand, its base cycles. -/
structure ReadRow where
  instr : Instr
  opcode : Byte
  operand : ReadOp
  cycles : Nat

/-- A write-class row. -/
structure WriteRow where
  instr : Instr
  opcode : Byte
  mode : MemMode
  cycles : Nat

/-- A read-modify-write row on memory. -/
structure ModRow where
  instr : Instr
  opcode : Byte
  mode : MemMode
  cycles : Nat

/-- LDA (R401). -/
def ldaRows (n : Byte) (w : Word) : List ReadRow :=
  [⟨.ldaImm n, 0xA9, .imm n, 2⟩, ⟨.ldaZp n, 0xA5, .mem (.zp n), 3⟩, ⟨.ldaZpx n, 0xB5, .mem (.zpx n), 4⟩,
    ⟨.ldaAbs w, 0xAD, .mem (.abs w), 4⟩, ⟨.ldaAbx w, 0xBD, .mem (.abx w), 4⟩, ⟨.ldaAby w, 0xB9, .mem (.aby w), 4⟩,
    ⟨.ldaIzx n, 0xA1, .mem (.izx n), 6⟩, ⟨.ldaIzy n, 0xB1, .mem (.izy n), 5⟩]

/-- LDX (R402). -/
def ldxRows (n : Byte) (w : Word) : List ReadRow :=
  [⟨.ldxImm n, 0xA2, .imm n, 2⟩, ⟨.ldxZp n, 0xA6, .mem (.zp n), 3⟩, ⟨.ldxZpy n, 0xB6, .mem (.zpy n), 4⟩,
    ⟨.ldxAbs w, 0xAE, .mem (.abs w), 4⟩, ⟨.ldxAby w, 0xBE, .mem (.aby w), 4⟩]

/-- LDY (R403). -/
def ldyRows (n : Byte) (w : Word) : List ReadRow :=
  [⟨.ldyImm n, 0xA0, .imm n, 2⟩, ⟨.ldyZp n, 0xA4, .mem (.zp n), 3⟩, ⟨.ldyZpx n, 0xB4, .mem (.zpx n), 4⟩,
    ⟨.ldyAbs w, 0xAC, .mem (.abs w), 4⟩, ⟨.ldyAbx w, 0xBC, .mem (.abx w), 4⟩]

/-- ADC (R501). -/
def adcRows (n : Byte) (w : Word) : List ReadRow :=
  [⟨.adcImm n, 0x69, .imm n, 2⟩, ⟨.adcZp n, 0x65, .mem (.zp n), 3⟩, ⟨.adcZpx n, 0x75, .mem (.zpx n), 4⟩,
    ⟨.adcAbs w, 0x6D, .mem (.abs w), 4⟩, ⟨.adcAbx w, 0x7D, .mem (.abx w), 4⟩, ⟨.adcAby w, 0x79, .mem (.aby w), 4⟩,
    ⟨.adcIzx n, 0x61, .mem (.izx n), 6⟩, ⟨.adcIzy n, 0x71, .mem (.izy n), 5⟩]

/-- SBC (R502). -/
def sbcRows (n : Byte) (w : Word) : List ReadRow :=
  [⟨.sbcImm n, 0xE9, .imm n, 2⟩, ⟨.sbcZp n, 0xE5, .mem (.zp n), 3⟩, ⟨.sbcZpx n, 0xF5, .mem (.zpx n), 4⟩,
    ⟨.sbcAbs w, 0xED, .mem (.abs w), 4⟩, ⟨.sbcAbx w, 0xFD, .mem (.abx w), 4⟩, ⟨.sbcAby w, 0xF9, .mem (.aby w), 4⟩,
    ⟨.sbcIzx n, 0xE1, .mem (.izx n), 6⟩, ⟨.sbcIzy n, 0xF1, .mem (.izy n), 5⟩]

/-- AND (R551). -/
def andRows (n : Byte) (w : Word) : List ReadRow :=
  [⟨.andImm n, 0x29, .imm n, 2⟩, ⟨.andZp n, 0x25, .mem (.zp n), 3⟩, ⟨.andZpx n, 0x35, .mem (.zpx n), 4⟩,
    ⟨.andAbs w, 0x2D, .mem (.abs w), 4⟩, ⟨.andAbx w, 0x3D, .mem (.abx w), 4⟩, ⟨.andAby w, 0x39, .mem (.aby w), 4⟩,
    ⟨.andIzx n, 0x21, .mem (.izx n), 6⟩, ⟨.andIzy n, 0x31, .mem (.izy n), 5⟩]

/-- ORA (R552). -/
def oraRows (n : Byte) (w : Word) : List ReadRow :=
  [⟨.oraImm n, 0x09, .imm n, 2⟩, ⟨.oraZp n, 0x05, .mem (.zp n), 3⟩, ⟨.oraZpx n, 0x15, .mem (.zpx n), 4⟩,
    ⟨.oraAbs w, 0x0D, .mem (.abs w), 4⟩, ⟨.oraAbx w, 0x1D, .mem (.abx w), 4⟩, ⟨.oraAby w, 0x19, .mem (.aby w), 4⟩,
    ⟨.oraIzx n, 0x01, .mem (.izx n), 6⟩, ⟨.oraIzy n, 0x11, .mem (.izy n), 5⟩]

/-- EOR (R553). -/
def eorRows (n : Byte) (w : Word) : List ReadRow :=
  [⟨.eorImm n, 0x49, .imm n, 2⟩, ⟨.eorZp n, 0x45, .mem (.zp n), 3⟩, ⟨.eorZpx n, 0x55, .mem (.zpx n), 4⟩,
    ⟨.eorAbs w, 0x4D, .mem (.abs w), 4⟩, ⟨.eorAbx w, 0x5D, .mem (.abx w), 4⟩, ⟨.eorAby w, 0x59, .mem (.aby w), 4⟩,
    ⟨.eorIzx n, 0x41, .mem (.izx n), 6⟩, ⟨.eorIzy n, 0x51, .mem (.izy n), 5⟩]

/-- CMP (R503). -/
def cmpRows (n : Byte) (w : Word) : List ReadRow :=
  [⟨.cmpImm n, 0xC9, .imm n, 2⟩, ⟨.cmpZp n, 0xC5, .mem (.zp n), 3⟩, ⟨.cmpZpx n, 0xD5, .mem (.zpx n), 4⟩,
    ⟨.cmpAbs w, 0xCD, .mem (.abs w), 4⟩, ⟨.cmpAbx w, 0xDD, .mem (.abx w), 4⟩, ⟨.cmpAby w, 0xD9, .mem (.aby w), 4⟩,
    ⟨.cmpIzx n, 0xC1, .mem (.izx n), 6⟩, ⟨.cmpIzy n, 0xD1, .mem (.izy n), 5⟩]

/-- CPX (R504). -/
def cpxRows (n : Byte) (w : Word) : List ReadRow :=
  [⟨.cpxImm n, 0xE0, .imm n, 2⟩, ⟨.cpxZp n, 0xE4, .mem (.zp n), 3⟩, ⟨.cpxAbs w, 0xEC, .mem (.abs w), 4⟩]

/-- CPY (R505). -/
def cpyRows (n : Byte) (w : Word) : List ReadRow :=
  [⟨.cpyImm n, 0xC0, .imm n, 2⟩, ⟨.cpyZp n, 0xC4, .mem (.zp n), 3⟩, ⟨.cpyAbs w, 0xCC, .mem (.abs w), 4⟩]

/-- BIT (R554). -/
def bitRows (n : Byte) (w : Word) : List ReadRow :=
  [⟨.bitZp n, 0x24, .mem (.zp n), 3⟩, ⟨.bitAbs w, 0x2C, .mem (.abs w), 4⟩]

/-- STA (R404). -/
def staRows (n : Byte) (w : Word) : List WriteRow :=
  [⟨.staZp n, 0x85, .zp n, 3⟩, ⟨.staZpx n, 0x95, .zpx n, 4⟩, ⟨.staAbs w, 0x8D, .abs w, 4⟩, ⟨.staAbx w, 0x9D, .abx w, 5⟩,
    ⟨.staAby w, 0x99, .aby w, 5⟩, ⟨.staIzx n, 0x81, .izx n, 6⟩, ⟨.staIzy n, 0x91, .izy n, 6⟩]

/-- STX (R405). -/
def stxRows (n : Byte) (w : Word) : List WriteRow :=
  [⟨.stxZp n, 0x86, .zp n, 3⟩, ⟨.stxZpy n, 0x96, .zpy n, 4⟩, ⟨.stxAbs w, 0x8E, .abs w, 4⟩]

/-- STY (R406). -/
def styRows (n : Byte) (w : Word) : List WriteRow :=
  [⟨.styZp n, 0x84, .zp n, 3⟩, ⟨.styZpx n, 0x94, .zpx n, 4⟩, ⟨.styAbs w, 0x8C, .abs w, 4⟩]

/-- INC (R506). -/
def incRows (n : Byte) (w : Word) : List ModRow :=
  [⟨.incZp n, 0xE6, .zp n, 5⟩, ⟨.incZpx n, 0xF6, .zpx n, 6⟩, ⟨.incAbs w, 0xEE, .abs w, 6⟩, ⟨.incAbx w, 0xFE, .abx w, 7⟩]

/-- DEC (R507). -/
def decRows (n : Byte) (w : Word) : List ModRow :=
  [⟨.decZp n, 0xC6, .zp n, 5⟩, ⟨.decZpx n, 0xD6, .zpx n, 6⟩, ⟨.decAbs w, 0xCE, .abs w, 6⟩, ⟨.decAbx w, 0xDE, .abx w, 7⟩]

/-- ASL on memory (R555). -/
def aslRows (n : Byte) (w : Word) : List ModRow :=
  [⟨.aslZp n, 0x06, .zp n, 5⟩, ⟨.aslZpx n, 0x16, .zpx n, 6⟩, ⟨.aslAbs w, 0x0E, .abs w, 6⟩, ⟨.aslAbx w, 0x1E, .abx w, 7⟩]

/-- LSR on memory (R556). -/
def lsrRows (n : Byte) (w : Word) : List ModRow :=
  [⟨.lsrZp n, 0x46, .zp n, 5⟩, ⟨.lsrZpx n, 0x56, .zpx n, 6⟩, ⟨.lsrAbs w, 0x4E, .abs w, 6⟩, ⟨.lsrAbx w, 0x5E, .abx w, 7⟩]

/-- ROL on memory (R557). -/
def rolRows (n : Byte) (w : Word) : List ModRow :=
  [⟨.rolZp n, 0x26, .zp n, 5⟩, ⟨.rolZpx n, 0x36, .zpx n, 6⟩, ⟨.rolAbs w, 0x2E, .abs w, 6⟩, ⟨.rolAbx w, 0x3E, .abx w, 7⟩]

/-- ROR on memory (R558). -/
def rorRows (n : Byte) (w : Word) : List ModRow :=
  [⟨.rorZp n, 0x66, .zp n, 5⟩, ⟨.rorZpx n, 0x76, .zpx n, 6⟩, ⟨.rorAbs w, 0x6E, .abs w, 6⟩, ⟨.rorAbx w, 0x7E, .abx w, 7⟩]

/-- Whether an operand's address crossed a page, as a number of cycles (70_reset_and_hazards.md R1011). -/
def ReadOp.penalty (o : ReadOp) (s : State) : Nat :=
  match o with
  | .imm _ => 0
  | .mem m => boolNat (m.ea s).1.crossed

/-- Whether reading an operand can change a device: never for an immediate one, else by its address. -/
def ReadOp.readsDevice (o : ReadOp) (s : State) : Bool :=
  match o with
  | .imm _ => false
  | .mem m => Machine.readsDevice (m.ea s).1.addr

/-- A read-class instruction runs: it has its opcode, takes its base cycles and its page penalty, reads its operand M once,
leaves the registers `after M`, and changes nothing but what that read changes; every byte of storage reads as before, and
the devices are as before unless the operand is one of their registers. -/
def ReadRow.Runs (r : ReadRow) (after : Byte → Regs) (s : State) : Prop :=
  (encode r.instr).head? = some r.opcode ∧
  ∃ t, exec r.instr s = .next t ∧
    t.regs = after (r.operand.get (s.begin r.cycles)).1 ∧
    t.ctl.stepCycles = s.ctl.stepCycles + r.cycles + r.operand.penalty (s.begin r.cycles) ∧
    t = { (r.operand.get (s.begin r.cycles)).2 with regs := t.regs } ∧
    OnlyReads s t ∧ (∀ a : Word, isStorage a = true → t.peek a = s.peek a) ∧
    (r.operand.readsDevice (s.begin r.cycles) = false → SameDevices s t)

/-- A store instruction runs: it has its opcode, computes its address by its mode, which touches no device, stores the byte `v`
there, takes its fixed count of cycles, and changes no register; at $4014 the next state is that of the bus write, OAM DMA included. -/
def WriteRow.Runs (r : WriteRow) (v : Byte) (s : State) : Prop :=
  (encode r.instr).head? = some r.opcode ∧
  ∃ t, exec r.instr s = .next t ∧ t.regs = s.regs ∧
    OnlyReads s (r.mode.ea (s.begin r.cycles)).2 ∧ SameDevices s (r.mode.ea (s.begin r.cycles)).2 ∧
    StoredAt (r.mode.ea (s.begin r.cycles)).1.addr v (r.mode.ea (s.begin r.cycles)).2 t ∧
    ((r.mode.ea (s.begin r.cycles)).1.addr ≠ 0x4014 → t.ctl.stepCycles = s.ctl.stepCycles + r.cycles) ∧
    ((r.mode.ea (s.begin r.cycles)).1.addr = 0x4014 → t = busWrite 0x4014 v (r.mode.ea (s.begin r.cycles)).2)

/-- The byte a read-modify-write row reads, and the state after that read. -/
def ModRow.read (r : ModRow) (s : State) : Byte × State :=
  busRead (r.mode.ea (s.begin r.cycles)).1.addr (r.mode.ea (s.begin r.cycles)).2

/-- A read-modify-write instruction on memory runs: it reads the byte m at its address, stores `f m` there, and leaves the
flags `flags m`; no other register changes; its count of cycles is fixed; the read leaves the devices as they were unless
the address is one of their registers. -/
def ModRow.Runs (r : ModRow) (f : Byte → Byte) (flags : Byte → Flags) (s : State) : Prop :=
  (encode r.instr).head? = some r.opcode ∧
  ∃ t, exec r.instr s = .next t ∧
    t.regs = { s.regs with p := flags (r.read s).1 } ∧
    OnlyReads s (r.read s).2 ∧
    (readsDevice (r.mode.ea (s.begin r.cycles)).1.addr = false → SameDevices s (r.read s).2) ∧
    StoredAt (r.mode.ea (s.begin r.cycles)).1.addr (f (r.read s).1) (r.read s).2 t ∧
    ((r.mode.ea (s.begin r.cycles)).1.addr ≠ 0x4014 → t.ctl.stepCycles = s.ctl.stepCycles + r.cycles) ∧
    ((r.mode.ea (s.begin r.cycles)).1.addr = 0x4014 →
      t = { busWrite 0x4014 (f (r.read s).1) (r.read s).2 with regs := t.regs })

/-- The state after an implied instruction: the registers `r`, `n` cycles, nothing else. -/
def State.afterImplied (s : State) (r : Regs) (n : Nat) : State :=
  { s with regs := r, ctl := { s.ctl with stepCycles := s.ctl.stepCycles + n, stepBase := n } }

/-- The flags after a result `v`, in numbers: Z when it is 0, N when bit 7 is set (00_scope.md R16). -/
def nzOf (p : Flags) (v : Byte) : Flags := { p with z := decide (v.toNat = 0), n := decide (128 ≤ v.toNat) }

/-- The flags in a byte, by its bits 7, 6, 3, 2, 1 and 0 (10_state.md R112). -/
def flagBits (v : Byte) : Flags :=
  { n := decide (v.toNat / 128 = 1), v := decide (v.toNat / 64 % 2 = 1), d := decide (v.toNat / 8 % 2 = 1),
    i := decide (v.toNat / 4 % 2 = 1), z := decide (v.toNat / 2 % 2 = 1), c := decide (v.toNat % 2 = 1) }

/-- The byte at `S + k`, within the stack page (10_state.md R131). -/
def State.stackPeek (s : State) (k : Nat) : Byte := s.peek (stackAddr (s.regs.sp + BitVec.ofNat 8 k))

/-- What `Compare(r, m)` leaves, in numbers (R513). -/
def compareFlags (p : Flags) (r m : Byte) : Flags :=
  { p with
    c := decide (m.toNat ≤ r.toNat), z := decide (r.toNat = m.toNat), n := decide (128 ≤ (r.toNat + 256 - m.toNat) % 256) }

/-- `t` is `s` after reads of storage, registers apart: nothing changed but the bus latch, `n` more events, `k` more cycles. -/
structure ReadStorage (n k : Nat) (s t : State) : Prop where
  ctl : t.ctl = { s.ctl with stepCycles := s.ctl.stepCycles + k, stepBase := k }
  rest : t.ram = s.ram ∧ t.cart = s.cart ∧ t.ppu = s.ppu ∧ t.apu = s.apu ∧ t.pads = s.pads ∧ t.inputs = s.inputs
  events : t.trace.length = s.trace.length + n ∧ t.trace.drop n = s.trace

/-- `t` is `s` with the bytes `bs` pushed, registers apart: the j-th byte stands at the stack address of `S - j`, within page
$01 (10_state.md R125, R130), every other byte of storage is as before, and no device is touched. Reads of storage may
have happened beside (vectors); no other write has. -/
structure Pushed (bs : List Byte) (s t : State) : Prop where
  ctl : t.ctl = { s.ctl with stepCycles := t.ctl.stepCycles, stepBase := t.ctl.stepBase }
  devices : t.cart = s.cart ∧ t.ppu = s.ppu ∧ t.apu = s.apu ∧ t.pads = s.pads ∧ t.inputs = s.inputs
  stored : ∀ j b, bs[j]? = some b → t.peek (stackAddr (s.regs.sp - BitVec.ofNat 8 j)) = b
  others : ∀ a : Word, isStorage a = true →
    (∀ j, j < bs.length → ¬ SameCell a (stackAddr (s.regs.sp - BitVec.ofNat 8 j))) → t.peek a = s.peek a

/-- The word a little-endian pair of bytes of storage makes, the low byte at `a` (20_memory.md R203, R218). -/
def State.peekWord (s : State) (a : Word) : Word := wordOf (s.peek (a + 1)) (s.peek a)

/-- `k` bytes fetched one after the other, and the state after them (00_scope.md R14, 30_encoding.md R301). -/
def fetchSeq (k : Nat) (s : State) : List Byte × State :=
  match k with
  | 0 => ([], s)
  | n + 1 => ((fetch s).1 :: (fetchSeq n (fetch s).2).1, (fetchSeq n (fetch s).2).2)

/-- The 105 illegal opcodes as 30_encoding.md §7 lists them (R340). -/
def illegalOpcodes : List Nat :=
  [0x02, 0x03, 0x04, 0x07, 0x0B, 0x0C, 0x0F, 0x12, 0x13, 0x14, 0x17, 0x1A, 0x1B, 0x1C, 0x1F, 0x22, 0x23, 0x27, 0x2B,
    0x2F, 0x32, 0x33, 0x34, 0x37, 0x3A, 0x3B, 0x3C, 0x3F] ++
  [0x42, 0x43, 0x44, 0x47, 0x4B, 0x4F, 0x52, 0x53, 0x54, 0x57, 0x5A, 0x5B, 0x5C, 0x5F, 0x62, 0x63, 0x64, 0x67, 0x6B,
    0x6F, 0x72, 0x73, 0x74, 0x77, 0x7A, 0x7B, 0x7C, 0x7F] ++
  [0x80, 0x82, 0x83, 0x87, 0x89, 0x8B, 0x8F, 0x92, 0x93, 0x97, 0x9B, 0x9C, 0x9E, 0x9F, 0xA3, 0xA7, 0xAB, 0xAF, 0xB2,
    0xB3, 0xB7, 0xBB, 0xBF] ++
  [0xC2, 0xC3, 0xC7, 0xCB, 0xCF, 0xD2, 0xD3, 0xD4, 0xD7, 0xDA, 0xDB, 0xDC, 0xDF, 0xE2, 0xE3, 0xE7, 0xEB, 0xEF, 0xF2,
    0xF3, 0xF4, 0xF7, 0xFA, 0xFB, 0xFC, 0xFF]

/-- What no CPU step's own bus work ever changes, whatever it does: the cartridge's ROM and shape, the raster position, the
frame counter, the frame buffer, the background pipeline, the sprite unit, the inputs, and the control state that the step
does not count in (70_reset_and_hazards.md R1001, R1041). -/
structure SameBetweenTicks (s t : State) : Prop where
  rom : t.cart.prgRom = s.cart.prgRom ∧ t.cart.prgBanks = s.cart.prgBanks ∧ t.cart.chrBanks = s.cart.chrBanks ∧
    t.cart.mirroring = s.cart.mirroring ∧ t.cart.mapper = s.cart.mapper
  raster : t.ppu.scanline = s.ppu.scanline ∧ t.ppu.dot = s.ppu.dot ∧ t.ppu.oddFrame = s.ppu.oddFrame ∧
    t.ppu.frame = s.ppu.frame
  picture : t.ppu.fb = s.ppu.fb ∧ t.ppu.bg = s.ppu.bg ∧ t.ppu.spr = s.ppu.spr ∧ t.ppu.sprite0Hit = s.ppu.sprite0Hit ∧
    t.ppu.spriteOverflow = s.ppu.spriteOverflow
  sound : t.apu.odd = s.apu.odd ∧ t.apu.samples = s.apu.samples ∧ t.apu.samplePhase = s.apu.samplePhase
  inputs : t.inputs = s.inputs
  control : t.ctl.cyclesTotal = s.ctl.cyclesTotal ∧ t.ctl.stallCycles = s.ctl.stallCycles ∧
    t.ctl.instrPc = s.ctl.instrPc ∧ t.ctl.instrCycle = s.ctl.instrCycle ∧ t.ctl.fault = s.ctl.fault ∧
    t.ctl.lastResult = s.ctl.lastResult
  /-- A latched NMI stays latched until it is taken (R730). -/
  nmi : s.ctl.nmiPending = true → t.ctl.nmiPending = true
  /-- The trace grows: no event is taken back or rewritten (20_memory.md R261). -/
  trace : ∃ es, t.trace = es ++ s.trace

/-- The raster position as one number: dots since the top of the frame (61_ppu.md R830). -/
def Ppu.position (p : Ppu) : Nat := 341 * p.scanline + p.dot

/-- The state after `k` reads of $4016 (60_exceptions.md R762). -/
def padReads1 (k : Nat) (s : State) : State :=
  match k with
  | 0 => s
  | n + 1 => padReads1 n (busRead 0x4016 s).2

end Sys2Proof.Machine
end

