-- ==== Sys2Proof/Machine/Invariant.lean ====
section
/-! DEFINITION. The machine's invariants: what every reachable state meets, and what the statements about steps may assume.
Each clause cites the rule that makes it true; an unreachable state may break any of them. -/

namespace Sys2Proof.Machine

/-- A cartridge the load operation can have made: bank counts its mapper admits, bank registers in range, memories canonical
and within their sizes (20_memory.md R220 to R234). -/
structure Cart.Ok (c : Cart) : Prop where
  admits : c.mapper.admits c.prgBanks c.chrBanks = true
  prgSel : c.prgSel < c.prgBanks
  chrSel : c.chrSel = 0 ∨ c.chrSel < c.chrBanks
  chrSelOff : c.mapper ≠ .m3 → c.chrSel = 0
  prgSelOff : c.mapper ≠ .m2 → c.prgSel = 0
  prgRom : Store.Wf c.prgRom ∧ Store.Within c.prgRom c.prgSize
  chr : Store.Wf c.chr ∧ Store.Within c.chr c.chrSize
  prgRam : Store.Wf c.prgRam ∧ Store.Within c.prgRam 0x2000

/-- The PPU's memories: canonical, within their sizes (R243, R242, R244, R880), and no OAM attribute byte with a bit that is
not implemented (R244). -/
structure Ppu.MemOk (p : Ppu) : Prop where
  vram : Store.Wf p.vram ∧ Store.Within p.vram 0x800
  palette : Store.Wf p.palette ∧ Store.Within p.palette 32
  oam : Store.Wf p.oam ∧ Store.Within p.oam 256
  fb : Store.Wf p.fb ∧ Store.Within p.fb 61440
  attr : ∀ k, k < 64 → Store.read p.oam (4 * k + 2) &&& 0x1C = 0

/-- Every memory of the machine is in its canonical form, within its size (log 4), and the cartridge is one a load made. -/
structure State.MemOk (s : State) : Prop where
  ram : Store.Wf s.ram ∧ Store.Within s.ram 0x800
  cart : s.cart.Ok
  ppu : s.ppu.MemOk

/-- The PPU's counters are in the ranges of 61_ppu.md R800: a frame is 262 lines of 341 dots (R830), at most eight sprites are
chosen (R861). -/
structure Ppu.RangeOk (p : Ppu) : Prop where
  scanline : p.scanline ≤ 261
  dot : p.dot ≤ 340
  count : p.spr.count ≤ 8

/-- A length counter and its enable bit: at most 254, and 0 while the channel is not enabled (62_apu.md R900, R930). -/
def LengthOk (enabled : Bool) (length : Nat) : Prop := length ≤ 254 ∧ (enabled = false → length = 0)

/-- The APU's counters are in the ranges of 62_apu.md R900, and the noise shift register is not stuck at 0 (R937). -/
structure Apu.RangeOk (a : Apu) : Prop where
  pulse1 : LengthOk a.pulse1.enabled a.pulse1.length
  pulse2 : LengthOk a.pulse2.enabled a.pulse2.length
  triangle : LengthOk a.triangle.enabled a.triangle.length
  noise : LengthOk a.noise.enabled a.noise.length
  lfsr : a.noise.lfsr ≠ 0
  noiseTimer : a.noise.timer.toNat < 4068
  bits : 1 ≤ a.dmc.bitsRemaining ∧ a.dmc.bitsRemaining ≤ 8
  dmcTimer : a.dmc.timer.toNat < 428
  sampleAddr : 0xC000 ≤ a.dmc.sampleAddr.toNat ∧ a.dmc.sampleAddr.toNat % 64 = 0
  sampleLen : a.dmc.sampleLen.toNat % 16 = 1
  bytes : a.dmc.bytesRemaining.toNat ≤ 4081
  fsFour : a.fs.fiveStep = false → a.fs.cycle < 29829
  fsFive : a.fs.fiveStep = true → a.fs.cycle < 37281

/-- While the strobe is 1 both ports stand at the A button (60_exceptions.md R761). -/
def Pads.RangeOk (p : Pads) : Prop := p.strobe = true → p.index1 = 0 ∧ p.index2 = 0

/-- The devices' counters are in range. -/
structure State.DevicesOk (s : State) : Prop where
  ppu : s.ppu.RangeOk
  apu : s.apu.RangeOk
  pads : s.pads.RangeOk

/-- While the fault register is set it names an illegal opcode, and PC stands at its address (60_exceptions.md R710, R711). -/
def State.FaultOk (s : State) : Prop :=
  ∀ f, s.ctl.fault = some f → formOf f.op.toNat = none ∧ s.regs.pc = f.addr

end Sys2Proof.Machine
end

