-- ==== Sys2Proof/Safety.lean ====
section
/-! DEFINITION. What a safe run is (60_exceptions.md R711, 70_reset_and_hazards.md R1050): a run is safe while the fault
register is clear; a faulted machine is an error end, never a normal one; a normal end is the self jump
with no interrupt to wait for. -/

namespace Sys2Proof

open Sys2Proof.Machine

/-- No fault has been raised since the last reset. -/
def Safe (s : State) : Prop := s.ctl.fault = none

/-- A run of k steps stays safe: it reaches a state, and that state is safe. -/
def SafeRun (k : Nat) (s : State) : Prop :=
  match Host.Core.run core k s with
  | .next t => Safe t
  | .fault _ => False
  | .refused _ => False

/-- The machine has reached a normal end: no fault, at a self jump, and no interrupt to wait for (R1050). -/
def NormalEnd (s : State) : Prop := s.runStatus = .normalEnd

/-- The machine waits for an interrupt in a self jump: it has not ended (R1050). -/
def Waiting (s : State) : Prop := s.runStatus = .waiting

end Sys2Proof
end

