-- ==== Sys2Proof/Certificates/Slice0/Obligations.lean ====
section
/-! DEFINITION. The statements for the provers, each with the rule of spec/ it formalises. The words used in them (frames, rows
of the opcode table, invariants) are defined in Machine/Frames.lean and Machine/Invariant.lean. -/

open Sys2Proof Sys2Proof.Machine

/-! ### Encoding, decoding, fetching -/

/-- Decoding the bytes of any instruction, whatever follows them, gives it back with every operand (R300, R302, R338). -/
def Obligations.DecodeOfEncodeGivesInstruction : Prop :=
  ∀ (i : Instr) (rest : List Byte), decode (encode i ++ rest) = .ok (i, rest)

/-- The bytes a decode read are exactly the encoding of what it gave: each encoding has one meaning (R302, R338, R341). -/
def Obligations.DecodedBytesAreTheEncoding : Prop :=
  ∀ (bs rest : List Byte) (i : Instr), decode bs = .ok (i, rest) → bs = encode i ++ rest

/-- Decode is total on opcode bytes: 151 official, and exactly the 105 listed ones are rejected, by name, whatever follows
(R338, R340); an instruction's length is its mode's (R302). -/
def Obligations.OpcodeMapIsTotal : Prop :=
  (∀ (b : Byte) (rest : List Byte), b.toNat ∈ illegalOpcodes ↔ decode (b :: rest) = .error (.illegalOpcode b)) ∧
  illegalOpcodes.length = 105 ∧ illegalOpcodes.Nodup ∧
  ((List.range 256).filter fun k => (formOf k).isSome).length = 151 ∧
  ∀ i : Instr, (encode i).length = i.mode.length

/-- Words written out from the table of 30_encoding.md §7, one for each family. -/
def Obligations.TableWordsDecode : Prop :=
  decode [0xB1, 0x10] = .ok (.ldaIzy 0x10, []) ∧ decode [0x96, 0xFF] = .ok (.stxZpy 0xFF, []) ∧
  decode [0xBA] = .ok (.tsx, []) ∧ decode [0x68] = .ok (.pla, []) ∧ decode [0x7D, 0x34, 0x12] = .ok (.adcAbx 0x1234, []) ∧
  decode [0xC0, 0x01] = .ok (.cpyImm 0x01, []) ∧ decode [0x2C, 0x02, 0x20] = .ok (.bitAbs 0x2002, []) ∧
  decode [0x6A] = .ok (.rorAcc, []) ∧ decode [0x6C, 0xFF, 0x12] = .ok (.jmpInd 0x12FF, []) ∧
  decode [0xD0, 0xFE] = .ok (.bne 0xFE, []) ∧ decode [0x78] = .ok (.sei, []) ∧ decode [0x00] = .ok (.brk, [])

/-- When a step executes an instruction and the bytes its fetches return decode to `i`, it is `exec i` at the state after those
fetches, with the owed stall counted, and then the tick loop (R301, R339, R1001). -/
def Obligations.StepRunsDecodedInstruction : Prop :=
  ∀ (s : State) (i : Instr) (k : Nat), s.poll = .instruction → decode (fetchSeq k s.startStep).1 = .ok (i, []) →
    ∃ u, exec i (fetchSeq k s.startStep).2.payStall = .next u ∧ step s = .next (finishStep .instruction u)

/-- Bytes fetched from storage are the bytes that stand there, at PC and after it modulo 65536, and fetching them changes
nothing but PC, the bus latch and the trace (R14, R121, R273, R301). -/
def Obligations.FetchedBytesAreMemory : Prop :=
  ∀ (k : Nat) (s : State), (∀ j, j < k → isStorage (s.regs.pc + BitVec.ofNat 16 j) = true) →
    (fetchSeq k s).1 = (List.range k).map (fun j => s.peek (s.regs.pc + BitVec.ofNat 16 j)) ∧
    (fetchSeq k s).2.regs = { s.regs with pc := s.regs.pc + BitVec.ofNat 16 k } ∧
    (fetchSeq k s).2.ctl = s.ctl ∧ (fetchSeq k s).2.ram = s.ram ∧ (fetchSeq k s).2.cart = s.cart ∧
    (fetchSeq k s).2.ppu = s.ppu ∧ (fetchSeq k s).2.apu = s.apu ∧ (fetchSeq k s).2.pads = s.pads ∧
    (fetchSeq k s).2.inputs = s.inputs ∧ (fetchSeq k s).2.trace.length = s.trace.length + k

/-! ### The status byte and the arithmetic laws -/

/-- The pushed status byte bit by bit, and that loading it gives the flags back and drops bits 5 and 4 (R110, R111, R112). -/
def Obligations.StatusByteRoundTrip : Prop :=
  (∀ (p : Flags) (b : Bool),
    (p.pushed b).toNat = 128 * boolNat p.n + 64 * boolNat p.v + 32 + 16 * boolNat b + 8 * boolNat p.d + 4 * boolNat p.i +
      2 * boolNat p.z + boolNat p.c) ∧
  (∀ (p : Flags) (b : Bool), Flags.ofByte (p.pushed b) = p) ∧
  (∀ v : Byte, Flags.ofByte v = flagBits v) ∧
  ∀ (v : Byte) (b : Bool), (Flags.ofByte v).pushed b = (v &&& 0xCF) ||| 0x20 ||| (if b then 0x10 else 0)

/-- `AddC` in exact integers (R500): the byte is the sum modulo 256, the carry says the sum is above 255, the overflow is the
sign formula and says the signed sum is out of range. -/
def Obligations.AddCIsExactAddition : Prop :=
  ∀ (a m : Byte) (c : Bool),
    (addByte a m c).toNat = (a.toNat + m.toNat + boolNat c) % 256 ∧
    (addCarry a m c = true ↔ 255 < a.toNat + m.toNat + boolNat c) ∧
    addOverflow a m c = (~~~(a ^^^ m) &&& (a ^^^ addByte a m c)).getLsbD 7 ∧
    (addOverflow a m c = true ↔ a.getLsbD 7 = m.getLsbD 7 ∧ (addByte a m c).getLsbD 7 ≠ a.getLsbD 7) ∧
    (addOverflow a m c = true ↔
      a.toInt + m.toInt + (boolNat c : Int) < -128 ∨ 127 < a.toInt + m.toInt + (boolNat c : Int))

/-! ### Results and frames of the instructions -/

/-- LDA, LDX and LDY, every form: the register becomes the operand, Z and N follow it, nothing else changes (R400 to R403,
R335, R1011). -/
def Obligations.LoadsSetRegisterAndFlags : Prop :=
  ∀ (s : State) (n : Byte) (w : Word),
    (∀ r ∈ ldaRows n w, r.Runs (fun m => { s.regs with a := m, p := nzOf s.regs.p m }) s) ∧
    (∀ r ∈ ldxRows n w, r.Runs (fun m => { s.regs with x := m, p := nzOf s.regs.p m }) s) ∧
    (∀ r ∈ ldyRows n w, r.Runs (fun m => { s.regs with y := m, p := nzOf s.regs.p m }) s)

/-- ADC and SBC, every form, in exact integers: A, C and V from the sum or the difference with borrow, Z and N from the new A,
whatever D is (R501, R502, R512). -/
def Obligations.AddAndSubtractResults : Prop :=
  ∀ (s : State) (n : Byte) (w : Word),
    (∀ r ∈ adcRows n w, r.Runs (fun m =>
      let sum : Int := (s.regs.a.toNat : Int) + m.toNat + boolNat s.regs.p.c
      let signed : Int := s.regs.a.toInt + m.toInt + boolNat s.regs.p.c
      let a' := BitVec.ofInt 8 sum
      { s.regs with
        a := a'
        p := { nzOf s.regs.p a' with c := decide (255 < sum), v := decide (signed < -128 ∨ 127 < signed) } }) s) ∧
    (∀ r ∈ sbcRows n w, r.Runs (fun m =>
      let diff : Int := (s.regs.a.toNat : Int) - m.toNat - (1 - boolNat s.regs.p.c)
      let signed : Int := s.regs.a.toInt - m.toInt - (1 - boolNat s.regs.p.c)
      let a' := BitVec.ofInt 8 diff
      { s.regs with
        a := a'
        p := { nzOf s.regs.p a' with c := decide (0 ≤ diff), v := decide (signed < -128 ∨ 127 < signed) } }) s)

/-- CMP, CPX and CPY, every form: C, Z and N by `Compare`, V kept, no register written (R503 to R505, R513). -/
def Obligations.CompareResults : Prop :=
  ∀ (s : State) (n : Byte) (w : Word),
    (∀ r ∈ cmpRows n w, r.Runs (fun m => { s.regs with p := compareFlags s.regs.p s.regs.a m }) s) ∧
    (∀ r ∈ cpxRows n w, r.Runs (fun m => { s.regs with p := compareFlags s.regs.p s.regs.x m }) s) ∧
    (∀ r ∈ cpyRows n w, r.Runs (fun m => { s.regs with p := compareFlags s.regs.p s.regs.y m }) s)

/-- AND, ORA, EOR and BIT, every form (R551 to R554): A and its Z and N, or for BIT only Z from `A & M` and N and V from the
operand's bits 7 and 6. -/
def Obligations.LogicAndBitTestResults : Prop :=
  ∀ (s : State) (n : Byte) (w : Word),
    (∀ r ∈ andRows n w, r.Runs (fun m => { s.regs with a := s.regs.a &&& m, p := nzOf s.regs.p (s.regs.a &&& m) }) s) ∧
    (∀ r ∈ oraRows n w, r.Runs (fun m => { s.regs with a := s.regs.a ||| m, p := nzOf s.regs.p (s.regs.a ||| m) }) s) ∧
    (∀ r ∈ eorRows n w, r.Runs (fun m => { s.regs with a := s.regs.a ^^^ m, p := nzOf s.regs.p (s.regs.a ^^^ m) }) s) ∧
    (∀ r ∈ bitRows n w, r.Runs (fun m =>
      { s.regs with
        p :=
          { s.regs.p with
            z := decide ((s.regs.a &&& m).toNat = 0)
            n := decide (m.toNat / 128 = 1)
            v := decide (m.toNat / 64 % 2 = 1) } }) s)

/-- STA, STX and STY, every form: the register is stored at the mode's address, in storage or into the device there, no
register or flag changes, the count is fixed (R404 to R406, R336, R1011). -/
def Obligations.StoresWriteTheirRegister : Prop :=
  ∀ (s : State) (n : Byte) (w : Word), s.MemOk →
    (∀ r ∈ staRows n w, r.Runs s.regs.a s) ∧ (∀ r ∈ stxRows n w, r.Runs s.regs.x s) ∧ (∀ r ∈ styRows n w, r.Runs s.regs.y s)

/-- INC and DEC on memory: one read and one write of the address, the byte plus or minus 1 modulo 256, Z and N from the result
(R506, R507, R337). -/
def Obligations.IncrementAndDecrementMemory : Prop :=
  ∀ (s : State) (n : Byte) (w : Word), s.MemOk →
    (∀ r ∈ incRows n w, r.Runs (fun m => BitVec.ofNat 8 (m.toNat + 1))
      (fun m => nzOf s.regs.p (BitVec.ofNat 8 (m.toNat + 1))) s) ∧
    (∀ r ∈ decRows n w, r.Runs (fun m => BitVec.ofNat 8 (m.toNat + 255))
      (fun m => nzOf s.regs.p (BitVec.ofNat 8 (m.toNat + 255))) s)

/-- ASL, LSR, ROL and ROR on memory and on A: the shifted byte, C the bit shifted out, Z and N from the result (R555 to R558,
R321, R337). -/
def Obligations.ShiftsAndRotates : Prop :=
  ∀ (s : State) (n : Byte) (w : Word), s.MemOk →
    let p := s.regs.p
    let asl : Byte → Byte := fun m => BitVec.ofNat 8 (2 * m.toNat)
    let lsr : Byte → Byte := fun m => BitVec.ofNat 8 (m.toNat / 2)
    let rol : Byte → Byte := fun m => BitVec.ofNat 8 (2 * m.toNat + boolNat p.c)
    let ror : Byte → Byte := fun m => BitVec.ofNat 8 (m.toNat / 2 + 128 * boolNat p.c)
    let left : (Byte → Byte) → Byte → Flags := fun f m => { nzOf p (f m) with c := decide (128 ≤ m.toNat) }
    let right : (Byte → Byte) → Byte → Flags := fun f m => { nzOf p (f m) with c := decide (m.toNat % 2 = 1) }
    (∀ r ∈ aslRows n w, r.Runs asl (left asl) s) ∧ (∀ r ∈ lsrRows n w, r.Runs lsr (right lsr) s) ∧
    (∀ r ∈ rolRows n w, r.Runs rol (left rol) s) ∧ (∀ r ∈ rorRows n w, r.Runs ror (right ror) s) ∧
    exec .aslAcc s = .next (s.afterImplied { s.regs with a := asl s.regs.a, p := left asl s.regs.a } 2) ∧
    exec .lsrAcc s = .next (s.afterImplied { s.regs with a := lsr s.regs.a, p := right lsr s.regs.a } 2) ∧
    exec .rolAcc s = .next (s.afterImplied { s.regs with a := rol s.regs.a, p := left rol s.regs.a } 2) ∧
    exec .rorAcc s = .next (s.afterImplied { s.regs with a := ror s.regs.a, p := right ror s.regs.a } 2)

/-- The six transfers: the whole next state (R407 to R412). TXS writes no flag. -/
def Obligations.TransfersCopyRegisters : Prop :=
  ∀ s : State,
    exec .tax s = .next (s.afterImplied { s.regs with x := s.regs.a, p := nzOf s.regs.p s.regs.a } 2) ∧
    exec .tay s = .next (s.afterImplied { s.regs with y := s.regs.a, p := nzOf s.regs.p s.regs.a } 2) ∧
    exec .txa s = .next (s.afterImplied { s.regs with a := s.regs.x, p := nzOf s.regs.p s.regs.x } 2) ∧
    exec .tya s = .next (s.afterImplied { s.regs with a := s.regs.y, p := nzOf s.regs.p s.regs.y } 2) ∧
    exec .tsx s = .next (s.afterImplied { s.regs with x := s.regs.sp, p := nzOf s.regs.p s.regs.sp } 2) ∧
    exec .txs s = .next (s.afterImplied { s.regs with sp := s.regs.x } 2)

/-- INX, INY, DEX and DEY: the whole next state; they wrap and write neither C nor V (R508 to R511, R514). -/
def Obligations.IndexRegistersStep : Prop :=
  ∀ s : State,
    let up : Byte → Byte := fun v => BitVec.ofNat 8 (v.toNat + 1)
    let down : Byte → Byte := fun v => BitVec.ofNat 8 (v.toNat + 255)
    exec .inx s = .next (s.afterImplied { s.regs with x := up s.regs.x, p := nzOf s.regs.p (up s.regs.x) } 2) ∧
    exec .iny s = .next (s.afterImplied { s.regs with y := up s.regs.y, p := nzOf s.regs.p (up s.regs.y) } 2) ∧
    exec .dex s = .next (s.afterImplied { s.regs with x := down s.regs.x, p := nzOf s.regs.p (down s.regs.x) } 2) ∧
    exec .dey s = .next (s.afterImplied { s.regs with y := down s.regs.y, p := nzOf s.regs.p (down s.regs.y) } 2)

/-- The seven flag instructions and NOP: the whole next state; each writes one flag to a constant, NOP none (R650 to R658). -/
def Obligations.FlagInstructionsWriteOneFlag : Prop :=
  ∀ s : State,
    exec .clc s = .next (s.afterImplied { s.regs with p := { s.regs.p with c := false } } 2) ∧
    exec .sec s = .next (s.afterImplied { s.regs with p := { s.regs.p with c := true } } 2) ∧
    exec .cli s = .next (s.afterImplied { s.regs with p := { s.regs.p with i := false } } 2) ∧
    exec .sei s = .next (s.afterImplied { s.regs with p := { s.regs.p with i := true } } 2) ∧
    exec .cld s = .next (s.afterImplied { s.regs with p := { s.regs.p with d := false } } 2) ∧
    exec .sed s = .next (s.afterImplied { s.regs with p := { s.regs.p with d := true } } 2) ∧
    exec .clv s = .next (s.afterImplied { s.regs with p := { s.regs.p with v := false } } 2) ∧
    exec .nop s = .next (s.afterImplied s.regs 2)

/-- PHA and PHP (R451, R452): one byte pushed, A or the status with B and bit 5 set; S less 1, nothing else. -/
def Obligations.PushInstructions : Prop :=
  ∀ s : State, s.MemOk →
    (∃ t, exec .pha s = .next t ∧ t.regs = { s.regs with sp := s.regs.sp - 1 } ∧ Pushed [s.regs.a] s t ∧
      t.ctl.stepCycles = s.ctl.stepCycles + 3 ∧ t.trace.length = s.trace.length + 1) ∧
    (∃ t, exec .php s = .next t ∧ t.regs = { s.regs with sp := s.regs.sp - 1 } ∧ Pushed [s.regs.p.pushed true] s t ∧
      t.ctl.stepCycles = s.ctl.stepCycles + 3 ∧ t.trace.length = s.trace.length + 1)

/-- PLA and PLP (R453, R454): one byte pulled into A with Z and N, or into the flags; S plus 1, nothing else. -/
def Obligations.PullInstructions : Prop :=
  ∀ s : State,
    (∃ t, exec .pla s = .next t ∧ ReadStorage 1 4 s t ∧
      t.regs = { s.regs with sp := s.regs.sp + 1, a := s.stackPeek 1, p := nzOf s.regs.p (s.stackPeek 1) }) ∧
    (∃ t, exec .plp s = .next t ∧ ReadStorage 1 4 s t ∧
      t.regs = { s.regs with sp := s.regs.sp + 1, p := flagBits (s.stackPeek 1) })

/-- The eight branches (R600 to R608, R1012): the whole next state; PC is the address after the branch. Taken, PC becomes that
address plus the signed offset, with 1 cycle more, and 1 more again on another page; else PC stays. -/
def Obligations.BranchesFollowTheirFlag : Prop :=
  ∀ (s : State) (n : Byte),
    ∀ r ∈ [(Instr.bcc n, (0x90 : Byte), !s.regs.p.c), (.bcs n, 0xB0, s.regs.p.c), (.beq n, 0xF0, s.regs.p.z),
      (.bne n, 0xD0, !s.regs.p.z), (.bmi n, 0x30, s.regs.p.n), (.bpl n, 0x10, !s.regs.p.n), (.bvc n, 0x50, !s.regs.p.v),
      (.bvs n, 0x70, s.regs.p.v)],
      let target : Word := BitVec.ofInt 16 (s.regs.pc.toNat + n.toInt)
      let more := if target.toNat / 256 = s.regs.pc.toNat / 256 then 1 else 2
      (encode r.1).head? = some r.2.1 ∧
      (r.2.2 = true → exec r.1 s = .next
        { s with
          regs := { s.regs with pc := target }
          ctl := { s.ctl with stepBase := 2, stepCycles := s.ctl.stepCycles + 2 + more } }) ∧
      (r.2.2 = false → exec r.1 s = .next (s.afterImplied s.regs 2))

/-- JMP absolute and JMP indirect (R609, R329): PC becomes the operand, or the word read at it, whose high byte comes from the
same page; nothing else but the two reads' effects. -/
def Obligations.JumpsLoadPc : Prop :=
  ∀ (s : State) (w : Word),
    exec (.jmpAbs w) s = .next (s.afterImplied { s.regs with pc := w } 3) ∧
    (let second : Word := BitVec.ofNat 16 (w.toNat / 256 * 256 + (w.toNat + 1) % 256)
    ∃ t, exec (.jmpInd w) s = .next t ∧
      t.regs = { s.regs with pc := wordOf ((busRead w s).2.peek second) (s.peek w) } ∧
      t = { (busRead second (busRead w s).2).2 with regs := t.regs, ctl := t.ctl } ∧
      OnlyReads s t ∧ t.ctl.stepCycles = s.ctl.stepCycles + 5 ∧
      (isStorage w = true → isStorage second = true →
        t.regs.pc = wordOf (s.peek second) (s.peek w) ∧ ReadStorage 2 5 s t))

/-- JSR and RTS (R610, R611): the address of the JSR's last byte is pushed high byte first and PC becomes the operand; RTS pulls
a word, low byte first, and adds 1. -/
def Obligations.SubroutineInstructions : Prop :=
  ∀ s : State,
    (∀ w : Word, s.MemOk → ∃ t, exec (.jsr w) s = .next t ∧
      t.regs = { s.regs with pc := w, sp := s.regs.sp - 2 } ∧
      Pushed [hiByte (s.regs.pc - 1), loByte (s.regs.pc - 1)] s t ∧
      t.ctl.stepCycles = s.ctl.stepCycles + 6 ∧ t.trace.length = s.trace.length + 2) ∧
    (∃ t, exec .rts s = .next t ∧ ReadStorage 2 6 s t ∧
      t.regs = { s.regs with pc := wordOf (s.stackPeek 2) (s.stackPeek 1) + 1, sp := s.regs.sp + 2 })

/-- BRK and RTI (R612, R613): BRK pushes the address two past itself and the status with B set, sets I, keeps D, and takes PC from
$FFFE; RTI restores the flags and PC and adds nothing. -/
def Obligations.BreakAndReturn : Prop :=
  ∀ s : State,
    (s.MemOk → ∃ t, exec .brk s = .next t ∧
      t.regs =
        { s.regs with
          pc := s.peekWord 0xFFFE, sp := s.regs.sp - 3, p := { s.regs.p with i := true } } ∧
      Pushed [hiByte (s.regs.pc + 1), loByte (s.regs.pc + 1), s.regs.p.pushed true] s t ∧
      t.ctl.stepCycles = s.ctl.stepCycles + 7 ∧ t.trace.length = s.trace.length + 5) ∧
    (∃ t, exec .rti s = .next t ∧ ReadStorage 3 6 s t ∧
      t.regs =
        { s.regs with
          pc := wordOf (s.stackPeek 3) (s.stackPeek 2), sp := s.regs.sp + 3, p := flagBits (s.stackPeek 1) })

/-! ### Addressing modes -/

/-- The modes that read nothing: zero page, zero page indexed (wrapping in page zero), absolute, and absolute indexed with its
page crossing (R323 to R328). -/
def Obligations.DirectModesAddress : Prop :=
  ∀ (s : State) (n : Byte) (w : Word),
    (∀ m ∈ [MemMode.zp n, .zpx n, .zpy n, .abs w, .abx w, .aby w], (m.ea s).2 = s) ∧
    ((MemMode.zp n).ea s).1.addr.toNat = n.toNat ∧
    ((MemMode.zpx n).ea s).1.addr.toNat = (n.toNat + s.regs.x.toNat) % 256 ∧
    ((MemMode.zpy n).ea s).1.addr.toNat = (n.toNat + s.regs.y.toNat) % 256 ∧
    ((MemMode.abs w).ea s).1.addr = w ∧
    (∀ m ∈ [MemMode.zp n, .zpx n, .zpy n, .abs w], (m.ea s).1.crossed = false) ∧
    ((MemMode.abx w).ea s).1.addr.toNat = (w.toNat + s.regs.x.toNat) % 65536 ∧
    ((MemMode.aby w).ea s).1.addr.toNat = (w.toNat + s.regs.y.toNat) % 65536 ∧
    (((MemMode.abx w).ea s).1.crossed = true ↔ (w.toNat + s.regs.x.toNat) % 65536 / 256 ≠ w.toNat / 256) ∧
    (((MemMode.aby w).ea s).1.crossed = true ↔ (w.toNat + s.regs.y.toNat) % 65536 / 256 ≠ w.toNat / 256)

/-- The two indirect modes (R330, R331): the pointer's two bytes are read from page zero, wrapping in it, low byte first; the
sum with Y carries into the high byte. -/
def Obligations.IndirectModesAddress : Prop :=
  ∀ (s : State) (n : Byte),
    let zero : Nat → Nat := fun k => (s.peek (BitVec.ofNat 16 k)).toNat
    let word : Nat → Nat := fun k => zero k + 256 * zero ((k + 1) % 256)
    let p := (n.toNat + s.regs.x.toNat) % 256
    ((MemMode.izx n).ea s).1.addr.toNat = word p ∧ ((MemMode.izx n).ea s).1.crossed = false ∧
    ((MemMode.izy n).ea s).1.addr.toNat = (word n.toNat + s.regs.y.toNat) % 65536 ∧
    (((MemMode.izy n).ea s).1.crossed = true ↔
      (word n.toNat + s.regs.y.toNat) % 65536 / 256 ≠ word n.toNat / 256) ∧
    ∀ q ∈ [(MemMode.izx n, p), (MemMode.izy n, n.toNat)], ∃ e f : BusEvent,
      e.kind = .read ∧ e.address.toNat = q.2 ∧ f.kind = .read ∧ f.address.toNat = (q.2 + 1) % 256 ∧
      (q.1.ea s).2 = { s with busLatch := f.value, trace := f :: e :: s.trace }

/-! ### Interrupts, the fault, reset -/

/-- The order of the poll (R731, R732, R733): a fault first, then a pending NMI, then an unmasked IRQ, then an instruction. How a
fault is reported, as the outcome `fault`, is the model's choice (log 9). -/
def Obligations.PollingOrder : Prop :=
  ∀ s : State,
    let irq := s.apu.frameIrq || s.apu.dmcIrq || s.inputs.extIrq
    (∀ f, s.ctl.fault = some f → step s = .fault (.illegalOpcode f.op f.addr)) ∧
    (s.ctl.fault = none → s.ctl.nmiPending = true → step s = .next (finishStep (.interrupt .nmi) (nmiStep s))) ∧
    (s.ctl.fault = none → s.ctl.nmiPending = false → irq = true → s.regs.p.i = false →
      step s = .next (finishStep (.interrupt .irq) (irqStep s))) ∧
    (s.ctl.fault = none → s.ctl.nmiPending = false → (irq = false ∨ s.regs.p.i = true) → step s = instructionStep s)

/-- Interrupt entry (R720): PC and the status with B clear pushed, I set, PC from the vector, 7 cycles and the owed stall; three
stack writes and two vector reads, in that order, each with its event; no other register or flag, no device, no other byte.
NMI clears its latch, IRQ does not. -/
def Obligations.InterruptEntrySavesAndVectors : Prop :=
  ∀ s : State, s.MemOk →
    let started := s.startStep.payStall
    let saved := [hiByte s.regs.pc, loByte s.regs.pc, s.regs.p.pushed false]
    let slot : Nat → Word := fun j => stackAddr (s.regs.sp - BitVec.ofNat 8 j)
    let ev : AccessKind → Word → Byte → BusEvent := fun kind a v =>
      { address := a, value := v, kind := kind, frame := s.ppu.frame, cycle := s.ctl.cyclesTotal,
        programCounter := s.regs.pc, snapshot := (s.inputs.buttons1, s.inputs.buttons2) }
    let events : Word → List BusEvent := fun vector =>
      [ev .read (vector + 1) (s.peek (vector + 1)), ev .read vector (s.peek vector),
        ev .write (slot 2) (s.regs.p.pushed false), ev .write (slot 1) (loByte s.regs.pc),
        ev .write (slot 0) (hiByte s.regs.pc)] ++ s.trace
    let ctl' :=
      { s.ctl with
        instrPc := s.regs.pc, instrCycle := s.ctl.cyclesTotal, stallCycles := 0, stepBase := 0,
        stepCycles := s.ctl.stallCycles + 7 }
    Pushed saved started.clearNmi (nmiStep s) ∧ (nmiStep s).ctl = { ctl' with nmiPending := false } ∧
    (nmiStep s).regs =
      { s.regs with pc := s.peekWord 0xFFFA, sp := s.regs.sp - 3, p := { s.regs.p with i := true } } ∧
    (nmiStep s).trace = events 0xFFFA ∧
    Pushed saved started (irqStep s) ∧ (irqStep s).ctl = ctl' ∧
    (irqStep s).regs =
      { s.regs with pc := s.peekWord 0xFFFE, sp := s.regs.sp - 3, p := { s.regs.p with i := true } } ∧
    (irqStep s).trace = events 0xFFFE

/-- Returns resume the caller (R610, R611, R612, R740): RTI after BRK gives every register back with PC past the padding byte; RTI
after an interrupt entry gives all registers back; RTS after JSR gives all registers back with PC after the JSR. -/
def Obligations.ReturnsResumeTheCaller : Prop :=
  ∀ s : State, s.MemOk →
    (∃ t u, exec .brk s = .next t ∧ exec .rti t = .next u ∧ u.regs = { s.regs with pc := s.regs.pc + 1 }) ∧
    (∀ vector : Word, ∃ u, exec .rti (interruptEntry vector s) = .next u ∧ u.regs = s.regs) ∧
    (∀ w : Word, ∃ t u, exec (.jsr w) s = .next t ∧ exec .rts t = .next u ∧ u.regs = s.regs)

/-- An illegal opcode at PC (R340, R710, R711): the step reads that byte and sets the fault register, PC stays, no register, flag
or memory changes, no cycle passes and no device ticks, the owed stall stays; every later step reports the fault; reset
clears it. That the raising step answers a next state and the later ones `fault` is the model's choice (log 9). -/
def Obligations.IllegalOpcodeFaults : Prop :=
  ∀ s : State, s.poll = .instruction → (s.peek s.regs.pc).toNat ∈ illegalOpcodes →
    let f : IllegalOp := { op := s.peek s.regs.pc, addr := s.regs.pc }
    ∃ t, step s = .next t ∧ t.regs = s.regs ∧
      t.ctl =
        { s.ctl with
          instrPc := s.regs.pc, instrCycle := s.ctl.cyclesTotal, stepCycles := 0, stepBase := 0, fault := some f,
          lastResult := .fault f } ∧
      OnlyReads s { t with ctl := s.ctl } ∧ (readsDevice s.regs.pc = false → SameDevices s t) ∧
      (∃ e : BusEvent, e.kind = .read ∧ e.address = s.regs.pc ∧ e.value = f.op ∧ t.trace = e :: s.trace) ∧
      step t = .fault (.illegalOpcode f.op f.addr) ∧ (resetOp t).ctl.fault = none

/-- Reset (R1030, R1031): every register and latch at its value, PC from $FFFC with the bank registers at 0, two vector-read
events, the memories, the cartridge and the inputs kept; a second reset leaves the same state but for its two events. -/
def Obligations.ResetOperation : Prop :=
  ∀ s : State,
    let t := resetOp s
    let banked := { s with cart := { s.cart with prgSel := 0, chrSel := 0 } }
    let event : Word → BusEvent := fun a =>
      { address := a, value := banked.peek a, kind := .read, frame := 0, cycle := 0, programCounter := 0xFFFC,
        snapshot := (s.inputs.buttons1, s.inputs.buttons2) }
    t.regs =
      { a := 0, x := 0, y := 0, sp := 0xFD, pc := banked.peekWord 0xFFFC,
        p := { c := false, z := false, i := true, d := false, v := false, n := false } } ∧
    t.ctl.cyclesTotal = 7 ∧ t.ctl.instrCycle = 7 ∧ t.ctl.instrPc = t.regs.pc ∧ t.ctl.fault = none ∧
    t.ctl.nmiPending = false ∧ t.ctl.stallCycles = 0 ∧
    t.ram = s.ram ∧ t.cart = banked.cart ∧ t.ppu = Ppu.resetWith s.ppu.vram s.ppu.palette s.ppu.oam ∧
    t.apu = Apu.reset ∧ t.pads = Pads.reset ∧ t.inputs = s.inputs ∧ t.busLatch = hiByte t.regs.pc ∧
    t.trace = event 0xFFFD :: event 0xFFFC :: s.trace ∧
    { resetOp t with trace := t.trace } = t

/-! ### The bus -/

/-- A bus read by region (R200, R210 to R217, R226): the byte, the latch, one event, and the side effect of the region alone. -/
def Obligations.BusReadByRegion : Prop :=
  ∀ (a : Word) (s : State),
    let k := a.toNat
    let v := (busRead a s).1
    let t := (busRead a s).2
    t.busLatch = v ∧ t.regs = s.regs ∧ t.ctl = s.ctl ∧ OnlyReads s t ∧
    t.trace =
      { address := a, value := v, kind := .read, frame := s.ppu.frame, cycle := s.ctl.instrCycle,
        programCounter := s.ctl.instrPc, snapshot := (s.inputs.buttons1, s.inputs.buttons2) } :: s.trace ∧
    (k < 0x2000 → v = Store.read s.ram (k % 2048)) ∧
    (0x6000 ≤ k ∧ k < 0x8000 → v = Store.read s.cart.prgRam (k - 0x6000)) ∧
    (0x8000 ≤ k → v = Store.read s.cart.prgRom (s.cart.mapCpu k)) ∧
    ((0x4000 ≤ k ∧ k < 0x4015) ∨ (0x4018 ≤ k ∧ k < 0x6000) → v = s.busLatch) ∧
    (¬ (0x2000 ≤ k ∧ k < 0x4000) → t.ppu = s.ppu) ∧ (k ≠ 0x4015 → t.apu = s.apu) ∧
    (k ≠ 0x4016 ∧ k ≠ 0x4017 → t.pads = s.pads) ∧
    (0x2000 ≤ k ∧ k < 0x4000 → v = (s.ppu.readReg s.cart (k % 8)).1 ∧ t.ppu = (s.ppu.readReg s.cart (k % 8)).2) ∧
    (k = 0x4015 → v = s.apu.status s.busLatch ∧ t.apu = { s.apu with frameIrq := false }) ∧
    (k = 0x4016 → v = (s.pads.read1 s.inputs).1 ∧ t.pads = (s.pads.read1 s.inputs).2) ∧
    (k = 0x4017 → v = (s.pads.read2 s.inputs).1 ∧ t.pads = (s.pads.read2 s.inputs).2)

/-- A bus write by region (R201, R210 to R217, R227): what `StoredAt` says, and no register changes. -/
def Obligations.BusWriteByRegion : Prop :=
  ∀ (a : Word) (v : Byte) (s : State), s.MemOk → StoredAt a v s (busWrite a v s) ∧ (busWrite a v s).regs = s.regs

/-- Internal RAM is mirrored four times (R212): an access reaches `ram[a mod $800]`; a byte written at one address reads back at
every address with the same low eleven bits, neither access touches a device, and a byte at any other RAM address is as
before. -/
def Obligations.RamMirrorsNameOneByte : Prop :=
  ∀ (s : State) (a b : Word) (v : Byte), s.MemOk → a.toNat < 0x2000 → b.toNat < 0x2000 →
    let t := busWrite a v s
    t.ram = Store.write s.ram (a.toNat % 0x800) v ∧ (busRead b s).1 = Store.read s.ram (b.toNat % 0x800) ∧
    t.ppu = s.ppu ∧ t.apu = s.apu ∧ t.pads = s.pads ∧ t.cart = s.cart ∧ t.regs = s.regs ∧ t.ctl = s.ctl ∧
    (a.toNat % 0x800 = b.toNat % 0x800 → (busRead b t).1 = v) ∧
    (a.toNat % 0x800 ≠ b.toNat % 0x800 → (busRead b t).1 = (busRead b s).1) ∧
    (busRead b t).2 = { t with busLatch := (busRead b t).1, trace := (busRead b t).2.trace }

/-- The PPU's eight registers repeat every 8 bytes through $3FFF (R213): a mirror behaves as the base address, side effects
included. -/
def Obligations.PpuRegisterMirrors : Prop :=
  ∀ (a b : Word) (v : Byte) (s : State), 0x2000 ≤ a.toNat → a.toNat < 0x4000 → b.toNat = 0x2000 + a.toNat % 8 →
    readRegion a s = readRegion b s ∧ writeRegion a v s = writeRegion b v s

/-- Bank selection (R228 to R233): on mapper 2 a ROM write moves the bank at $8000 and leaves $C000 on the last one; on mapper 3 it
moves the CHR bank and leaves every CPU read; on mapper 0 it does nothing. Bank numbers wrap. -/
def Obligations.BankSelectMovesOneWindow : Prop :=
  ∀ (c : Cart) (latch v : Byte), c.Ok →
    let d := c.onCpuWrite v
    (c.mapper = .m0 → d = c) ∧
    (c.mapper = .m2 →
      (∀ a, 0x8000 ≤ a → a < 0xC000 →
        d.read latch a = Store.read c.prgRom (v.toNat % c.prgBanks * 16384 + (a - 0x8000))) ∧
      (∀ a, 0xC000 ≤ a → a < 0x10000 →
        d.read latch a = Store.read c.prgRom ((c.prgBanks - 1) * 16384 + (a - 0xC000)) ∧
        d.read latch a = c.read latch a) ∧
      (∀ (p : Ppu) (a : BitVec 14), ppuRead d p a = ppuRead c p a)) ∧
    (c.mapper = .m3 →
      (∀ a, 0x8000 ≤ a → a < 0x10000 →
        d.read latch a = Store.read c.prgRom ((a - 0x8000) % (c.prgBanks * 16384)) ∧ d.read latch a = c.read latch a) ∧
      (∀ (p : Ppu) (a : BitVec 14), a.toNat < 0x2000 →
        ppuRead d p a = Store.read c.chr (v.toNat % c.chrBanks * 8192 + a.toNat)))

/-- Push and pull (R130, R131): a push writes $0100 + S and then decrements S, a pull increments S and then reads; both wrap
within page $01; a pull after a push gives the byte and S back. -/
def Obligations.PushAndPull : Prop :=
  ∀ (s : State) (v : Byte), s.MemOk →
    let at_ : Nat → Word := fun k => BitVec.ofNat 16 (0x100 + k)
    let below : Byte := BitVec.ofNat 8 (s.regs.sp.toNat + 255)
    let above : Byte := BitVec.ofNat 8 (s.regs.sp.toNat + 1)
    push v s = { busWrite (at_ s.regs.sp.toNat) v s with regs := { s.regs with sp := below } } ∧
    (push v s).peek (at_ s.regs.sp.toNat) = v ∧
    (s.regs.sp = 0 → (push v s).peek 0x0100 = v ∧ (push v s).regs.sp = 0xFF) ∧
    (pull s).1 = (busRead (at_ above.toNat) s).1 ∧
    (pull s).2 = { (busRead (at_ above.toNat) s).2 with regs := { s.regs with sp := above } } ∧
    (s.regs.sp = 0xFF → (pull s).1 = s.peek 0x0100 ∧ (pull s).2.regs.sp = 0) ∧
    (pull (push v s)).1 = v ∧ (pull (push v s)).2.regs = s.regs

/-! ### The picture unit -/

/-- Nametable mirroring (R223): the index bit by bit, which windows share a kilobyte, and the fold of $3000-$3EFF. -/
def Obligations.NametableMirroring : Prop :=
  (∀ a, 0x2000 ≤ a → a < 0x3F00 →
    let t := (a - 0x2000) &&& 0x0FFF
    vramIndex .horizontal a = ((t >>> 11) &&& 1) * 0x400 + (t &&& 0x3FF) ∧
    vramIndex .vertical a = ((t >>> 10) &&& 1) * 0x400 + (t &&& 0x3FF)) ∧
  (∀ m a, 0x3000 ≤ a → a < 0x3F00 → vramIndex m a = vramIndex m (a - 0x1000)) ∧
  (∀ k, k < 0x400 →
    vramIndex .horizontal (0x2000 + k) = k ∧ vramIndex .horizontal (0x2400 + k) = k ∧
    vramIndex .horizontal (0x2800 + k) = 0x400 + k ∧ vramIndex .horizontal (0x2C00 + k) = 0x400 + k ∧
    vramIndex .vertical (0x2000 + k) = k ∧ vramIndex .vertical (0x2800 + k) = k ∧
    vramIndex .vertical (0x2400 + k) = 0x400 + k ∧ vramIndex .vertical (0x2C00 + k) = 0x400 + k)

/-- PPUSCROLL and PPUADDR (R815, R816), by bus accesses of $2005 and $2006: which bits of t, v and fine X the first and the second
write set, the shared toggle, and that a read returns `io_latch`. -/
def Obligations.ScrollAndAddressWrites : Prop :=
  ∀ (s : State) (d : Byte),
    let p := s.ppu
    let scroll := (busWrite 0x2005 d s).ppu
    let addr := (busWrite 0x2006 d s).ppu
    (p.w = false →
      (scroll.t.extractLsb' 0 5 = d.extractLsb' 3 5 ∧ scroll.t.extractLsb' 5 10 = p.t.extractLsb' 5 10 ∧
        scroll.fineX = d.extractLsb' 0 3 ∧ scroll.w = true ∧ scroll.v = p.v) ∧
      (addr.t.extractLsb' 8 6 = d.extractLsb' 0 6 ∧ addr.t.extractLsb' 14 1 = 0 ∧
        addr.t.extractLsb' 0 8 = p.t.extractLsb' 0 8 ∧ addr.w = true ∧ addr.v = p.v ∧ addr.fineX = p.fineX)) ∧
    (p.w = true →
      (scroll.t.extractLsb' 12 3 = d.extractLsb' 0 3 ∧ scroll.t.extractLsb' 5 5 = d.extractLsb' 3 5 ∧
        scroll.t.extractLsb' 0 5 = p.t.extractLsb' 0 5 ∧ scroll.t.extractLsb' 10 2 = p.t.extractLsb' 10 2 ∧
        scroll.w = false ∧ scroll.v = p.v ∧ scroll.fineX = p.fineX) ∧
      (addr.t.extractLsb' 0 8 = d ∧ addr.t.extractLsb' 8 7 = p.t.extractLsb' 8 7 ∧ addr.v = addr.t ∧ addr.w = false ∧
        addr.fineX = p.fineX)) ∧
    (busRead 0x2005 s).1 = p.ioLatch ∧ (busRead 0x2006 s).1 = p.ioLatch

/-- PPUSTATUS (R812, R819): the byte a read of any mirror returns, its side effect and nothing more, and that a write changes
`io_latch` alone. -/
def Obligations.StatusReadClearsVblankAndToggle : Prop :=
  ∀ (s : State) (a : Word) (d : Byte), 0x2000 ≤ a.toNat → a.toNat < 0x4000 → a.toNat % 8 = 2 →
    (busRead a s).1.toNat =
      128 * boolNat s.ppu.vblank + 64 * boolNat s.ppu.sprite0Hit + 32 * boolNat s.ppu.spriteOverflow +
        s.ppu.ioLatch.toNat % 32 ∧
    (busRead a s).2.ppu = { s.ppu with vblank := false, w := false, ioLatch := (busRead a s).1 } ∧
    (busWrite a d s).ppu = { s.ppu with ioLatch := d } ∧ (busWrite a d s).cart = s.cart

/-- PPUDATA (R817, R241, R242): the increment by 1 or 32 modulo $8000; a read below $3F00 returns the old buffer and loads the
new one; a palette read returns the entry at once, with two bits of `io_latch`, and loads the nametable byte beneath; a
write reaches VRAM, the palette entry's six bits, or CHR RAM, and no other byte; what else of the PPU and the cartridge stays. -/
def Obligations.DataPortReadsAndWrites : Prop :=
  ∀ (c : Cart) (p : Ppu) (d : Byte), c.Ok → p.MemOk →
    let a := p.v.toNat % 0x4000
    let next := (p.v.toNat + (if bitAt p.ctrl 2 then 32 else 1)) % 0x8000
    let r := p.readReg c 7
    let q := p.writeReg c 7 d
    r.2.v.toNat = next ∧ q.2.v.toNat = next ∧
    (a < 0x3F00 → r.1 = p.readBuffer ∧ r.2.readBuffer = ppuRead c p (BitVec.ofNat 14 a)) ∧
    (0x3F00 ≤ a →
      r.1.toNat =
        p.ioLatch.toNat / 64 * 64 +
          ((Store.read p.palette (paletteIndex a)).toNat &&& (if bitAt p.mask 0 then 0x30 else 0x3F)) ∧
      r.2.readBuffer = Store.read p.vram (vramIndex c.mirroring (a - 0x1000))) ∧
    (a < 0x2000 → ppuRead q.1 q.2 (BitVec.ofNat 14 a) = if c.chrBanks = 0 then d else ppuRead c p (BitVec.ofNat 14 a)) ∧
    (0x2000 ≤ a ∧ a < 0x3F00 → ppuRead q.1 q.2 (BitVec.ofNat 14 a) = d) ∧
    (0x3F00 ≤ a → (ppuRead q.1 q.2 (BitVec.ofNat 14 a)).toNat = d.toNat % 64) ∧
    (∀ b : BitVec 14, ¬ SamePpuCell c a b.toNat → ppuRead q.1 q.2 b = ppuRead c p b) ∧
    r.2 = { p with v := r.2.v, readBuffer := r.2.readBuffer, ioLatch := r.1 } ∧
    q.2 = { p with v := q.2.v, ioLatch := d, vram := q.2.vram, palette := q.2.palette } ∧
    q.1 = { c with chr := q.1.chr } ∧ (0x2000 ≤ a → q.1 = c) ∧ (a < 0x2000 → q.2.vram = p.vram ∧ q.2.palette = p.palette)

/-- OAM DMA (R770, R771): after the write's own event, 256 reads of the page in order, each followed by the write of that byte to
$2004, all with the step's cycle and PC; 513 cycles, 514 when `instr_cycle + base` is odd. Every OAM byte, from OAMADDR on and
wrapping, is the byte read, without the attribute bits that are not implemented; a byte read from storage is the one that stands
there. No register, RAM byte or cartridge byte changes; of the PPU nothing but OAM and `io_latch`, unless the page is one of its
registers, whose reads have their side effects; of the sound unit and the ports nothing, unless the page is $40, which reads
$4015, $4016 and $4017 once each. -/
def Obligations.OamDmaCopiesAPage : Prop :=
  ∀ (s : State) (v : Byte), s.MemOk →
    let t := busWrite 0x4014 v s
    let source : Nat → Word := fun i => BitVec.ofNat 16 (v.toNat * 256 + i)
    let event : AccessKind → Word → Byte → BusEvent := fun kind a b =>
      { address := a, value := b, kind := kind, frame := s.ppu.frame, cycle := s.ctl.instrCycle,
        programCounter := s.ctl.instrPc, snapshot := (s.inputs.buttons1, s.inputs.buttons2) }
    t.regs = s.regs ∧ t.ram = s.ram ∧ t.cart = s.cart ∧ t.inputs = s.inputs ∧
    t.ctl = { s.ctl with stepCycles := s.ctl.stepCycles + 513 + (s.ctl.instrCycle + s.ctl.stepBase) % 2 } ∧
    (∃ copied : Nat → Byte,
      t.trace =
        (event .write 0x4014 v ::
          (List.range 256).flatMap fun i => [event .read (source i) (copied i), event .write 0x2004 (copied i)]).reverse ++
          s.trace ∧
      t.busLatch = copied 255 ∧ t.ppu.ioLatch = copied 255 ∧
      (∀ i, i < 256 → isStorage (source i) = true → copied i = s.peek (source i)) ∧
      ∀ i, i < 256 →
        Store.read t.ppu.oam ((s.ppu.oamAddr.toNat + i) % 256) =
          oamMask (BitVec.ofNat 8 (s.ppu.oamAddr.toNat + i)) (copied i)) ∧
    t.ppu =
      { s.ppu with
        oam := t.ppu.oam, ioLatch := t.ppu.ioLatch, vblank := t.ppu.vblank, w := t.ppu.w, v := t.ppu.v,
        readBuffer := t.ppu.readBuffer } ∧
    (v.toNat < 0x20 ∨ 0x40 ≤ v.toNat → t.ppu = { s.ppu with oam := t.ppu.oam, ioLatch := t.ppu.ioLatch }) ∧
    (v.toNat ≠ 0x40 → t.apu = s.apu ∧ t.pads = s.pads) ∧
    (v.toNat = 0x40 →
      t.apu = { s.apu with frameIrq := false } ∧ t.pads = ((s.pads.read1 s.inputs).2.read2 s.inputs).2)

/-- The scroll increments and copies (R851 to R854), field by field: coarse X with the horizontal nametable bit, fine Y, coarse Y
with the vertical nametable bit, and the two copies from t. -/
def Obligations.ScrollIncrementsAndCopies : Prop :=
  ∀ v t : BitVec 15,
    (v.toNat % 32 = 31 → (incCoarseX v).toNat % 32 = 0 ∧
      ∀ i, 5 ≤ i → (incCoarseX v).getLsbD i = if i = 10 then !v.getLsbD 10 else v.getLsbD i) ∧
    (v.toNat % 32 ≠ 31 → (incCoarseX v).toNat = v.toNat + 1) ∧
    (v.toNat / 4096 < 7 → (incY v).toNat = v.toNat + 4096) ∧
    (v.toNat / 4096 = 7 →
      (incY v).toNat / 4096 = 0 ∧ (incY v).toNat % 32 = v.toNat % 32 ∧ (incY v).getLsbD 10 = v.getLsbD 10 ∧
      (v.toNat / 32 % 32 = 29 → (incY v).toNat / 32 % 32 = 0 ∧ (incY v).getLsbD 11 = !v.getLsbD 11) ∧
      (v.toNat / 32 % 32 = 31 → (incY v).toNat / 32 % 32 = 0 ∧ (incY v).getLsbD 11 = v.getLsbD 11) ∧
      (v.toNat / 32 % 32 ≠ 29 → v.toNat / 32 % 32 ≠ 31 →
        (incY v).toNat / 32 % 32 = v.toNat / 32 % 32 + 1 ∧ (incY v).getLsbD 11 = v.getLsbD 11)) ∧
    (∀ i, i < 15 → (copyHorizontal v t).getLsbD i = if i < 5 ∨ i = 10 then t.getLsbD i else v.getLsbD i) ∧
    (∀ i, i < 15 → (copyVertical v t).getLsbD i = if 5 ≤ i ∧ i ≠ 10 then t.getLsbD i else v.getLsbD i)

/-- The raster (R830, R834): each tick moves one dot along a frame of 89342, wrapping at its end, where the parity flips; on the
pre-render line of an odd frame with rendering on, dot 340 is skipped. -/
def Obligations.RasterAdvancesOneDot : Prop :=
  ∀ (c : Cart) (p : Ppu), p.RangeOk →
    let q := p.tick c
    let skip := p.scanline = 261 ∧ p.dot = 339 ∧ p.oddFrame = true ∧ (p.mask.getLsbD 3 = true ∨ p.mask.getLsbD 4 = true)
    q.scanline ≤ 261 ∧ q.dot ≤ 340 ∧
    (¬ skip → q.position = (p.position + 1) % 89342 ∧
      (p.position = 89341 → q.oddFrame = !p.oddFrame) ∧ (p.position ≠ 89341 → q.oddFrame = p.oddFrame)) ∧
    (skip → q.position = 0 ∧ q.oddFrame = !p.oddFrame)

/-- Vertical blank and the NMI latch (R730, R831, R832, R835): set at (241, 1) with the frame counter, cleared at (261, 1) with
the sprite flags, otherwise both as before; a tick latches an NMI exactly when the NMI output rises. -/
def Obligations.VblankAndNmiLatch : Prop :=
  ∀ s : State,
    let t := ppuTick s
    let at1 := s.ppu.dot = 1
    (at1 → s.ppu.scanline = 241 → t.ppu.vblank = true ∧ t.ppu.frame = s.ppu.frame + 1) ∧
    (at1 → s.ppu.scanline = 261 → t.ppu.vblank = false ∧ t.ppu.sprite0Hit = false ∧ t.ppu.spriteOverflow = false) ∧
    (¬ (at1 ∧ s.ppu.scanline = 241) → t.ppu.frame = s.ppu.frame) ∧
    (¬ (at1 ∧ (s.ppu.scanline = 241 ∨ s.ppu.scanline = 261)) → t.ppu.vblank = s.ppu.vblank) ∧
    t.ctl =
      { s.ctl with
        nmiPending :=
          s.ctl.nmiPending || (!(s.ppu.vblank && s.ppu.ctrl.getLsbD 7) && (t.ppu.vblank && s.ppu.ctrl.getLsbD 7)) } ∧
    t.regs = s.regs ∧ t.ram = s.ram ∧ t.cart = s.cart ∧ t.apu = s.apu ∧ t.pads = s.pads ∧ t.trace = s.trace

/-- Sprite evaluation (R861): the first eight sprites in range of the line are chosen, in OAM order; the overflow flag says there
was a ninth; sprite 0 is among them when it is in range; the rest of secondary OAM is $FF. -/
def Obligations.SpriteEvaluationChoosesEight : Prop :=
  ∀ (p : Ppu) (line : Nat),
    let h := if bitAt p.ctrl 5 then 16 else 8
    let y : Nat → Nat := fun n => (Store.read p.oam (4 * n)).toNat
    let found := (List.range 64).filter fun n => decide (y n ≤ line ∧ line < y n + h)
    let scan := p.spriteScan line
    scan.count = min 8 found.length ∧ scan.overflow = decide (8 < found.length) ∧
    scan.zeroHere = decide (y 0 ≤ line ∧ line < y 0 + h) ∧
    (∀ k n, k < 8 → found[k]? = some n → ∀ j, j < 4 → entry scan.secOam (4 * k + j) 0 = Store.read p.oam (4 * n + j)) ∧
    (∀ k, 4 * scan.count ≤ k → k < 32 → entry scan.secOam k 0 = 0xFF)

/-! ### The sound unit -/

/-- $4015 (R921, R922): a write enables channels, clears the lengths of the others and the DMC interrupt flag, and restarts or
stops the DMC; a read gives the flags and the active channels, bit 5 from the bus latch, and clears the frame flag alone. -/
def Obligations.ChannelEnableAndStatus : Prop :=
  ∀ (s : State) (d : Byte),
    let t := busWrite 0x4015 d s
    let on : Nat → Bool := fun i => d.getLsbD i
    t.apu.pulse1 = { s.apu.pulse1 with enabled := on 0, length := if on 0 then s.apu.pulse1.length else 0 } ∧
    t.apu.pulse2 = { s.apu.pulse2 with enabled := on 1, length := if on 1 then s.apu.pulse2.length else 0 } ∧
    t.apu.triangle = { s.apu.triangle with enabled := on 2, length := if on 2 then s.apu.triangle.length else 0 } ∧
    t.apu.noise = { s.apu.noise with enabled := on 3, length := if on 3 then s.apu.noise.length else 0 } ∧
    (on 4 = false → t.apu.dmc = { s.apu.dmc with bytesRemaining := 0 }) ∧
    (on 4 = true → s.apu.dmc.bytesRemaining = 0 →
      t.apu.dmc = { s.apu.dmc with curAddr := s.apu.dmc.sampleAddr, bytesRemaining := s.apu.dmc.sampleLen }) ∧
    (on 4 = true → s.apu.dmc.bytesRemaining ≠ 0 → t.apu.dmc = s.apu.dmc) ∧
    t.apu.dmcIrq = false ∧ t.apu.frameIrq = s.apu.frameIrq ∧ t.apu.fs = s.apu.fs ∧
    (busRead 0x4015 s).1.toNat =
      128 * boolNat s.apu.dmcIrq + 64 * boolNat s.apu.frameIrq + 32 * (s.busLatch.toNat / 32 % 2) +
        16 * boolNat (decide (0 < s.apu.dmc.bytesRemaining.toNat)) + 8 * boolNat (decide (0 < s.apu.noise.length)) +
        4 * boolNat (decide (0 < s.apu.triangle.length)) + 2 * boolNat (decide (0 < s.apu.pulse2.length)) +
        boolNat (decide (0 < s.apu.pulse1.length)) ∧
    (busRead 0x4015 s).2.apu = { s.apu with frameIrq := false }

/-- The frame sequencer (R925, R940, R941, R942): where each mode counts, wraps and clocks, quarter before half, that only the
end of the 4-step sequence raises the frame interrupt, unless inhibited, and what a write to $4017 does. The count returns to 0
in the tick that reaches the last value, as R940 says and not as decision D29 does (log 16). -/
def Obligations.FrameSequencerSteps : Prop :=
  ∀ a : Apu,
    let k := a.fs.cycle + 1
    let b := a.frameStep
    let counted := { a with fs := { a.fs with cycle := k } }
    (a.fs.fiveStep = false →
      (k = 29829 → b.fs.cycle = 0 ∧ b.frameIrq = (a.frameIrq || !a.fs.irqInhibit) ∧
        { b with fs := { b.fs with cycle := k }, frameIrq := a.frameIrq } = counted.quarterFrame.halfFrame) ∧
      (k = 14913 → b = counted.quarterFrame.halfFrame) ∧
      (k = 7457 ∨ k = 22371 → b = counted.quarterFrame) ∧
      (k ≠ 29829 → k ≠ 14913 → k ≠ 7457 → k ≠ 22371 → b = counted)) ∧
    (a.fs.fiveStep = true →
      (k = 37281 → b.fs.cycle = 0 ∧ { b with fs := { b.fs with cycle := k } } = counted.quarterFrame.halfFrame) ∧
      (k = 14913 → b = counted.quarterFrame.halfFrame) ∧
      (k = 7457 ∨ k = 22371 → b = counted.quarterFrame) ∧
      (k ≠ 37281 → k ≠ 14913 → k ≠ 7457 → k ≠ 22371 → b = counted) ∧ b.frameIrq = a.frameIrq) ∧
    ∀ d : Byte,
      let w := a.writeFrameCounter d
      let rest := { w with fs := a.fs, frameIrq := a.frameIrq }
      w.fs = { fiveStep := d.getLsbD 7, irqInhibit := d.getLsbD 6, cycle := 0 } ∧
      w.frameIrq = (a.frameIrq && !d.getLsbD 6) ∧
      (d.getLsbD 7 = true → rest = a.quarterFrame.halfFrame) ∧ (d.getLsbD 7 = false → rest = a)

/-- Envelope and noise clocks (R931, R937): the envelope's three cases and its volume; the shift register moves down one bit and
takes the exclusive OR of bit 0 and bit 1, or bit 6 in mode 1, at the top. -/
def Obligations.EnvelopeAndNoiseClocks : Prop :=
  (∀ (e : Envelope) (vol : BitVec 4) (loop : Bool),
    let f := e.clock vol loop
    (e.start = true → f = { start := false, decay := 15, divider := vol }) ∧
    (e.start = false → e.divider = 0 → f.start = false ∧ f.divider = vol ∧
      f.decay.toNat = if 0 < e.decay.toNat then e.decay.toNat - 1 else if loop then 15 else 0) ∧
    (e.start = false → e.divider ≠ 0 → f.start = false ∧ f.divider.toNat = e.divider.toNat - 1 ∧ f.decay = e.decay) ∧
    envVolume true vol e = vol.toNat ∧ envVolume false vol e = e.decay.toNat) ∧
  (∀ n : Noise,
    (n.timer ≠ 0 → n.timerStep = { n with timer := BitVec.ofNat 12 (n.timer.toNat - 1) }) ∧
    (n.timer = 0 →
      n.timerStep.timer.toNat = noiseTable.getD n.periodIndex.toNat 0 - 1 ∧
      (∀ i, i < 14 → n.timerStep.lfsr.getLsbD i = n.lfsr.getLsbD (i + 1)) ∧
      n.timerStep.lfsr.getLsbD 14 =
        (n.lfsr.getLsbD 0 ^^ (if n.mode then n.lfsr.getLsbD 6 else n.lfsr.getLsbD 1))))

/-- The DMC memory reader (R962, R963, R964): when the buffer is empty and bytes remain it reads the byte at the current address by
the bus, with the tick's cycle in its event, owes the CPU 4 cycles, advances the address with its wrap to $8000 and counts
down; the last byte restarts a looping sample, else raises the interrupt if enabled. Otherwise it does nothing. -/
def Obligations.DmcReaderFetchesBytes : Prop :=
  ∀ (s : State) (cycle : Nat),
    let m := s.apu.dmc
    let t := dmcReader cycle s
    (m.bufferFull = true ∨ m.bytesRemaining = 0 → t = s) ∧
    (m.bufferFull = false → m.bytesRemaining ≠ 0 →
      t.apu.dmc.buffer = s.peek m.curAddr ∧ t.apu.dmc.bufferFull = true ∧
      t.ctl.stallCycles = s.ctl.stallCycles + 4 ∧ t.regs = s.regs ∧ t.ram = s.ram ∧ t.cart = s.cart ∧
      (∃ e : BusEvent, e.kind = .read ∧ e.address = m.curAddr ∧ e.cycle = cycle ∧ e.value = s.peek m.curAddr ∧
        t.trace = e :: s.trace) ∧
      (m.bytesRemaining.toNat ≠ 1 →
        t.apu.dmc.bytesRemaining.toNat = m.bytesRemaining.toNat - 1 ∧
        t.apu.dmc.curAddr.toNat = (if m.curAddr.toNat = 0xFFFF then 0x8000 else m.curAddr.toNat + 1) ∧
        t.apu.dmcIrq = s.apu.dmcIrq) ∧
      (m.bytesRemaining.toNat = 1 → m.loop = true →
        t.apu.dmc.curAddr = m.sampleAddr ∧ t.apu.dmc.bytesRemaining = m.sampleLen ∧ t.apu.dmcIrq = s.apu.dmcIrq) ∧
      (m.bytesRemaining.toNat = 1 → m.loop = false →
        t.apu.dmc.bytesRemaining = 0 ∧ t.apu.dmcIrq = (s.apu.dmcIrq || m.irqEnable)))

/-- The mixer (R970, R971): its two partial sums, 0 exactly when every input is 0, and dependent on the pulses only through their
sum. -/
def Obligations.MixerIsNonlinearSum : Prop :=
  ∀ p1 p2 t n d : Nat,
    (mix p1 p2 t n d = 0 ↔ p1 = 0 ∧ p2 = 0 ∧ t = 0 ∧ n = 0 ∧ d = 0) ∧
    (∀ q1 q2, q1 + q2 = p1 + p2 → mix q1 q2 t n d = mix p1 p2 t n d) ∧
    mix p1 p2 t n d = mix p1 p2 0 0 0 + mix 0 0 t n d ∧
    (0 < p1 + p2 → mix p1 p2 0 0 0 * (8128 / ((p1 + p2 : Nat) : Rat) + 100) = 9588 / 100) ∧
    (0 < t + n + d → mix 0 0 t n d * (1 / ((t : Rat) / 8227 + (n : Rat) / 12241 + (d : Rat) / 22638) + 100) = 15979 / 100)

/-- The controllers (R761, R762): a write to $4016 sets the strobe from its bit 0 and, if that is set, latches both ports; while
the strobe is held, where both indexes are 0 as the invariant `Pads.RangeOk` says, a read reloads its port and gives the A
button; else it gives $40 and the button its index names, and the index moves on modulo 8, so that the k-th read gives the
button k modulo 8. Port 2 is at $4017. -/
def Obligations.ControllerReadsWrap : Prop :=
  ∀ s : State,
    let p := s.pads
    let inp := s.inputs
    (∀ v : Byte, v.getLsbD 0 = true →
      (busWrite 0x4016 v s).pads =
        { strobe := true, shift1 := inp.buttons1, shift2 := inp.buttons2, index1 := 0, index2 := 0 }) ∧
    (∀ v : Byte, v.getLsbD 0 = false → (busWrite 0x4016 v s).pads = { p with strobe := false }) ∧
    (p.RangeOk → p.strobe = true →
      (busRead 0x4016 s).1.toNat = 0x40 + inp.buttons1.toNat % 2 ∧
      (busRead 0x4016 s).2.pads = { p with shift1 := inp.buttons1, index1 := 0 } ∧
      (busRead 0x4017 s).1.toNat = 0x40 + inp.buttons2.toNat % 2 ∧
      (busRead 0x4017 s).2.pads = { p with shift2 := inp.buttons2, index2 := 0 }) ∧
    (p.strobe = false →
      (busRead 0x4016 s).1.toNat = 0x40 + p.shift1.toNat / 2 ^ p.index1.toNat % 2 ∧
      (busRead 0x4016 s).2.pads = { p with index1 := BitVec.ofNat 3 (p.index1.toNat + 1) } ∧
      (busRead 0x4017 s).1.toNat = 0x40 + p.shift2.toNat / 2 ^ p.index2.toNat % 2 ∧
      (busRead 0x4017 s).2.pads = { p with index2 := BitVec.ofNat 3 (p.index2.toNat + 1) } ∧
      ∀ k : Nat, (busRead 0x4016 (padReads1 k s)).1.toNat = 0x40 + p.shift1.toNat / 2 ^ ((p.index1.toNat + k) % 8) % 2)

/-! ### The whole machine -/

/-- No instruction, whatever it is, moves the devices' time, takes back an event, drops a latched NMI, or changes ROM, the inputs,
the fault register or the owed stall (R1001, R1041, R261, R730). -/
def Obligations.InstructionsDoNotAdvanceDevices : Prop :=
  ∀ (i : Instr) (s : State), ∃ t, exec i s = .next t ∧ SameBetweenTicks s t

/-- A step's count (R1001, R1002, R1010, R1014): a step that raises no fault adds to `cycles_total` the n it reports; a step that
raises one adds nothing and leaves the raster where it is. -/
def Obligations.StepCountsItsCycles : Prop :=
  ∀ s t : State, step s = .next t →
    (t.ctl.fault = none ∧ ∃ n,
      (t.ctl.lastResult = .instruction n ∨ t.ctl.lastResult = .interrupt .nmi n ∨ t.ctl.lastResult = .interrupt .irq n) ∧
      t.ctl.cyclesTotal = s.ctl.cyclesTotal + n) ∨
    (∃ f, t.ctl.fault = some f ∧ t.ctl.lastResult = .fault f ∧ t.ctl.cyclesTotal = s.ctl.cyclesTotal ∧
      t.ctl.stallCycles = s.ctl.stallCycles ∧ t.ppu.position = s.ppu.position)

/-- INVARIANT: every memory stays in its canonical form and within its size, the cartridge stays one a load can make with its
bank registers in range, and the OAM attribute bits that are not implemented stay 0 (R225, R228, R242 to R244; the
canonical form is the model's choice, log 4). -/
def Obligations.StepKeepsMemoriesInOrder : Prop := ∀ s t : State, s.MemOk → step s = .next t → t.MemOk

/-- INVARIANT: the raster stays in a frame, at most eight sprites are chosen, a disabled channel's length is 0, the APU's counters
stay in range, the noise register never sticks at 0, the strobe holds the ports at A, and the fault register names an illegal
opcode at PC (R800, R830, R861, R900, R930, R937, R961, R761, R710). -/
def Obligations.StepKeepsDevicesInRange : Prop :=
  ∀ s t : State, s.DevicesOk → s.FaultOk → step s = .next t → t.DevicesOk ∧ t.FaultOk

/-- The invariants hold at the reset state, and at every machine loaded from an image and reset (R221, R1030, R1032). -/
def Obligations.ResetMachinesMeetTheInvariants : Prop :=
  (State.reset.MemOk ∧ State.reset.DevicesOk ∧ State.reset.FaultOk) ∧
  ∀ (img : List Byte) (s : State), loadImage img = .ok s →
    (resetOp s).MemOk ∧ (resetOp s).DevicesOk ∧ (resetOp s).FaultOk

/-- Loading (R220, R221, R222): exactly which images load, and what the cartridge then holds. Which error is named when several
hold is the model's reading (log 7) and is not stated here. -/
def Obligations.LoadAcceptsExactlyValidImages : Prop :=
  ∀ img : List Byte,
    let byte : Nat → Byte := fun k => img.getD k 0
    let prg := (byte 4).toNat
    let chr := (byte 5).toNat
    let id := (byte 7).toNat / 16 * 16 + (byte 6).toNat / 16
    ((∃ c, loadCart img = .ok c) ↔
      16 ≤ img.length ∧ byte 0 = 0x4E ∧ byte 1 = 0x45 ∧ byte 2 = 0x53 ∧ byte 3 = 0x1A ∧
      (byte 6).getLsbD 2 = false ∧ (byte 6).getLsbD 3 = false ∧ 16 + prg * 16384 + chr * 8192 ≤ img.length ∧
      ((id = 0 ∧ (prg = 1 ∨ prg = 2) ∧ chr ≤ 1) ∨ (id = 2 ∧ 1 ≤ prg ∧ chr ≤ 1) ∨
        (id = 3 ∧ (prg = 1 ∨ prg = 2) ∧ 1 ≤ chr))) ∧
    ∀ c, loadCart img = .ok c →
      (id = 0 → c.mapper = .m0) ∧ (id = 2 → c.mapper = .m2) ∧ (id = 3 → c.mapper = .m3) ∧
      c.prgBanks = prg ∧ c.chrBanks = chr ∧ c.prgSel = 0 ∧ c.chrSel = 0 ∧ c.prgRam = [] ∧
      c.mirroring = (if (byte 6).getLsbD 0 then .vertical else .horizontal) ∧
      (∀ k, k < prg * 16384 → Store.read c.prgRom k = byte (16 + k)) ∧
      (∀ k, k < chr * 8192 → Store.read c.chr k = byte (16 + prg * 16384 + k)) ∧
      (chr = 0 → ∀ k, Store.read c.chr k = 0)

/-- The tick loop (R901, R1001, R1014): a step whose CPU part counted n cycles makes n times three PPU ticks and then one APU tick,
whose transactions carry `cycles_total + k`, and nothing else but its own bookkeeping. So the raster moves 3 n dots along the
frame, exactly with rendering off, and with at most one dot skipped within a frame's time with rendering on (R834); the APU's
parity flips n times; and the sample clock has counted n ticks, each sample made taking one period off it (R980). -/
def Obligations.StepTicksThreeDotsACycle : Prop :=
  ∀ (s : State) (result : Nat → StepResult),
    let n := s.ctl.stepCycles
    let t := finishStep result s
    let u := (List.range n).foldl
      (fun w k => apuTick (s.ctl.cyclesTotal + k) (ppuTick (ppuTick (ppuTick w)))) s
    t = { u with ctl := { u.ctl with cyclesTotal := s.ctl.cyclesTotal + n, lastResult := result n } } ∧
    t.regs = s.regs ∧ t.ram = s.ram ∧ t.cart = s.cart ∧ t.inputs = s.inputs ∧
    t.apu.odd = (s.apu.odd ^^ decide (n % 2 = 1)) ∧
    t.apu.samplePhase + Config.samplePeriod * ((t.apu.samples.length : Rat) - (s.apu.samples.length : Rat)) =
      s.apu.samplePhase + (n : Rat) ∧
    (s.ppu.RangeOk →
      (s.ppu.mask.getLsbD 3 = false → s.ppu.mask.getLsbD 4 = false →
        t.ppu.position = (s.ppu.position + 3 * n) % 89342) ∧
      (n ≤ 29780 → ∃ skipped, skipped ≤ 1 ∧ t.ppu.position = (s.ppu.position + 3 * n + skipped) % 89342))

/-- The end of a run (R1050). A normal end is a self jump without a fault and with no interrupt to wait for; a self jump with an
interrupt enabled or pending is a wait, not an end; a fault is neither. At a normal end in storage the machine keeps stepping and
stays there: each step is that JMP, and registers, RAM and cartridge are as before. A wait is left by the interrupt. What counts
as an interrupt enabled is the model's reading (log 17). -/
def Obligations.NormalEndStays : Prop :=
  ∀ s : State,
    let pc := s.regs.pc
    let selfJump := s.peek pc = 0x4C ∧ s.peekWord (pc + 1) = pc
    let off := s.ctl.nmiPending = false ∧ s.ppu.ctrl.getLsbD 7 = false ∧ s.regs.p.i = true
    (NormalEnd s ↔ s.ctl.fault = none ∧ selfJump ∧ off) ∧ (Waiting s ↔ s.ctl.fault = none ∧ selfJump ∧ ¬ off) ∧
    (∀ f, s.ctl.fault = some f → ¬ NormalEnd s ∧ ¬ Waiting s ∧ step s = .fault (.illegalOpcode f.op f.addr)) ∧
    (NormalEnd s → isStorage pc = true → isStorage (pc + 1) = true → isStorage (pc + 2) = true →
      ∃ t, step s = .next t ∧ NormalEnd t ∧ t.regs = s.regs ∧ t.ram = s.ram ∧ t.cart = s.cart ∧
        t.ctl.lastResult = .instruction (3 + s.ctl.stallCycles)) ∧
    (Waiting s → s.ctl.nmiPending = true → step s = .next (finishStep (.interrupt .nmi) (nmiStep s))) ∧
    (Waiting s → s.ctl.nmiPending = false → s.irqLine = true → s.regs.p.i = false →
      step s = .next (finishStep (.interrupt .irq) (irqStep s)))
end

