-- ==== Sys2Proof/Laws/Decode.lean ====
section
/-! SUPPORT. The two bytes of a word, and what decoding does. -/

namespace Sys2Proof

@[simp] theorem loByte_toNat (w : Word) : (loByte w).toNat = w.toNat % 256 := by simp [loByte]

@[simp] theorem hiByte_toNat (w : Word) : (hiByte w).toNat = w.toNat / 256 := by
  have := w.isLt
  simp [hiByte, Nat.shiftRight_eq_div_pow]
  omega

@[simp] theorem wordOf_toNat (hi lo : Byte) : (wordOf hi lo).toNat = hi.toNat * 256 + lo.toNat := by
  show BitVec.toNat (w := 8 + 8) (hi ++ lo) = _
  rw [BitVec.toNat_append, ← Nat.shiftLeft_add_eq_or_of_lt lo.isLt, Nat.shiftLeft_eq]

/-- The two bytes of a word make it. -/
@[simp] theorem wordOf_hi_lo (w : Word) : wordOf (hiByte w) (loByte w) = w := by
  apply BitVec.eq_of_toNat_eq
  simp
  omega

@[simp] theorem loByte_wordOf (hi lo : Byte) : loByte (wordOf hi lo) = lo := by
  apply BitVec.eq_of_toNat_eq
  have := lo.isLt
  simp
  omega

@[simp] theorem hiByte_wordOf (hi lo : Byte) : hiByte (wordOf hi lo) = hi := by
  apply BitVec.eq_of_toNat_eq
  have := lo.isLt
  simp
  omega

/-- An illegal opcode is rejected. -/
theorem decode_illegal {b : Byte} (h : formOf b.toNat = none) (r : List Byte) :
    decode (b :: r) = .error (.illegalOpcode b) := by simp [decode, h]

/-- Format F1. -/
theorem decode_f1 {b : Byte} {i : Instr} (h : formOf b.toNat = some (.f1 i)) (r : List Byte) :
    decode (b :: r) = .ok (i, r) := by simp [decode, h]

/-- Format F2. -/
theorem decode_f2 {b : Byte} {mk : Byte → Instr} (h : formOf b.toNat = some (.f2 mk)) (n : Byte) (r : List Byte) :
    decode (b :: n :: r) = .ok (mk n, r) := by simp [decode, h]

/-- Format F3. -/
theorem decode_f3 {b : Byte} {mk : Word → Instr} (h : formOf b.toNat = some (.f3 mk)) (lo hi : Byte) (r : List Byte) :
    decode (b :: lo :: hi :: r) = .ok (mk (wordOf hi lo), r) := by simp [decode, h]

/-- What a successful decode read: an opcode of one of the three formats and its operand bytes. -/
theorem decode_cases {bs rest : List Byte} {i : Instr} (h : decode bs = .ok (i, rest)) :
    (∃ b, formOf b.toNat = some (.f1 i) ∧ bs = b :: rest) ∨
    (∃ b mk n, formOf b.toNat = some (.f2 mk) ∧ i = mk n ∧ bs = b :: n :: rest) ∨
    (∃ b mk lo hi, formOf b.toNat = some (.f3 mk) ∧ i = mk (wordOf hi lo) ∧ bs = b :: lo :: hi :: rest) := by
  unfold decode at h
  split at h
  · cases h
  · split at h <;> cases h
    · exact .inl ⟨_, ‹_›, rfl⟩
    · exact .inr (.inl ⟨_, _, _, ‹_›, rfl, rfl⟩)
    · exact .inr (.inr ⟨_, _, _, _, ‹_›, rfl, rfl⟩)

end Sys2Proof
end

