-- ==== Sys2Proof/Laws/State.lean ====
section
/-! SUPPORT. What each update of the state leaves in each field, one lemma a field, by definition. -/

namespace Sys2Proof.Machine

@[simp] theorem State.setA_regs (s : State) (v : Byte) : (s.setA v).regs = { s.regs with a := v } := rfl
@[simp] theorem State.setA_ctl (s : State) (v : Byte) : (s.setA v).ctl = s.ctl := rfl
@[simp] theorem State.setA_ram (s : State) (v : Byte) : (s.setA v).ram = s.ram := rfl
@[simp] theorem State.setA_busLatch (s : State) (v : Byte) : (s.setA v).busLatch = s.busLatch := rfl
@[simp] theorem State.setA_cart (s : State) (v : Byte) : (s.setA v).cart = s.cart := rfl
@[simp] theorem State.setA_ppu (s : State) (v : Byte) : (s.setA v).ppu = s.ppu := rfl
@[simp] theorem State.setA_apu (s : State) (v : Byte) : (s.setA v).apu = s.apu := rfl
@[simp] theorem State.setA_pads (s : State) (v : Byte) : (s.setA v).pads = s.pads := rfl
@[simp] theorem State.setA_inputs (s : State) (v : Byte) : (s.setA v).inputs = s.inputs := rfl
@[simp] theorem State.setA_trace (s : State) (v : Byte) : (s.setA v).trace = s.trace := rfl

@[simp] theorem State.setX_regs (s : State) (v : Byte) : (s.setX v).regs = { s.regs with x := v } := rfl
@[simp] theorem State.setX_ctl (s : State) (v : Byte) : (s.setX v).ctl = s.ctl := rfl
@[simp] theorem State.setX_ram (s : State) (v : Byte) : (s.setX v).ram = s.ram := rfl
@[simp] theorem State.setX_busLatch (s : State) (v : Byte) : (s.setX v).busLatch = s.busLatch := rfl
@[simp] theorem State.setX_cart (s : State) (v : Byte) : (s.setX v).cart = s.cart := rfl
@[simp] theorem State.setX_ppu (s : State) (v : Byte) : (s.setX v).ppu = s.ppu := rfl
@[simp] theorem State.setX_apu (s : State) (v : Byte) : (s.setX v).apu = s.apu := rfl
@[simp] theorem State.setX_pads (s : State) (v : Byte) : (s.setX v).pads = s.pads := rfl
@[simp] theorem State.setX_inputs (s : State) (v : Byte) : (s.setX v).inputs = s.inputs := rfl
@[simp] theorem State.setX_trace (s : State) (v : Byte) : (s.setX v).trace = s.trace := rfl

@[simp] theorem State.setY_regs (s : State) (v : Byte) : (s.setY v).regs = { s.regs with y := v } := rfl
@[simp] theorem State.setY_ctl (s : State) (v : Byte) : (s.setY v).ctl = s.ctl := rfl
@[simp] theorem State.setY_ram (s : State) (v : Byte) : (s.setY v).ram = s.ram := rfl
@[simp] theorem State.setY_busLatch (s : State) (v : Byte) : (s.setY v).busLatch = s.busLatch := rfl
@[simp] theorem State.setY_cart (s : State) (v : Byte) : (s.setY v).cart = s.cart := rfl
@[simp] theorem State.setY_ppu (s : State) (v : Byte) : (s.setY v).ppu = s.ppu := rfl
@[simp] theorem State.setY_apu (s : State) (v : Byte) : (s.setY v).apu = s.apu := rfl
@[simp] theorem State.setY_pads (s : State) (v : Byte) : (s.setY v).pads = s.pads := rfl
@[simp] theorem State.setY_inputs (s : State) (v : Byte) : (s.setY v).inputs = s.inputs := rfl
@[simp] theorem State.setY_trace (s : State) (v : Byte) : (s.setY v).trace = s.trace := rfl

@[simp] theorem State.setSp_regs (s : State) (v : Byte) : (s.setSp v).regs = { s.regs with sp := v } := rfl
@[simp] theorem State.setSp_ctl (s : State) (v : Byte) : (s.setSp v).ctl = s.ctl := rfl
@[simp] theorem State.setSp_ram (s : State) (v : Byte) : (s.setSp v).ram = s.ram := rfl
@[simp] theorem State.setSp_busLatch (s : State) (v : Byte) : (s.setSp v).busLatch = s.busLatch := rfl
@[simp] theorem State.setSp_cart (s : State) (v : Byte) : (s.setSp v).cart = s.cart := rfl
@[simp] theorem State.setSp_ppu (s : State) (v : Byte) : (s.setSp v).ppu = s.ppu := rfl
@[simp] theorem State.setSp_apu (s : State) (v : Byte) : (s.setSp v).apu = s.apu := rfl
@[simp] theorem State.setSp_pads (s : State) (v : Byte) : (s.setSp v).pads = s.pads := rfl
@[simp] theorem State.setSp_inputs (s : State) (v : Byte) : (s.setSp v).inputs = s.inputs := rfl
@[simp] theorem State.setSp_trace (s : State) (v : Byte) : (s.setSp v).trace = s.trace := rfl

@[simp] theorem State.setPc_regs (s : State) (w : Word) : (s.setPc w).regs = { s.regs with pc := w } := rfl
@[simp] theorem State.setPc_ctl (s : State) (w : Word) : (s.setPc w).ctl = s.ctl := rfl
@[simp] theorem State.setPc_ram (s : State) (w : Word) : (s.setPc w).ram = s.ram := rfl
@[simp] theorem State.setPc_busLatch (s : State) (w : Word) : (s.setPc w).busLatch = s.busLatch := rfl
@[simp] theorem State.setPc_cart (s : State) (w : Word) : (s.setPc w).cart = s.cart := rfl
@[simp] theorem State.setPc_ppu (s : State) (w : Word) : (s.setPc w).ppu = s.ppu := rfl
@[simp] theorem State.setPc_apu (s : State) (w : Word) : (s.setPc w).apu = s.apu := rfl
@[simp] theorem State.setPc_pads (s : State) (w : Word) : (s.setPc w).pads = s.pads := rfl
@[simp] theorem State.setPc_inputs (s : State) (w : Word) : (s.setPc w).inputs = s.inputs := rfl
@[simp] theorem State.setPc_trace (s : State) (w : Word) : (s.setPc w).trace = s.trace := rfl

@[simp] theorem State.setP_regs (s : State) (p : Flags) : (s.setP p).regs = { s.regs with p := p } := rfl
@[simp] theorem State.setP_ctl (s : State) (p : Flags) : (s.setP p).ctl = s.ctl := rfl
@[simp] theorem State.setP_ram (s : State) (p : Flags) : (s.setP p).ram = s.ram := rfl
@[simp] theorem State.setP_busLatch (s : State) (p : Flags) : (s.setP p).busLatch = s.busLatch := rfl
@[simp] theorem State.setP_cart (s : State) (p : Flags) : (s.setP p).cart = s.cart := rfl
@[simp] theorem State.setP_ppu (s : State) (p : Flags) : (s.setP p).ppu = s.ppu := rfl
@[simp] theorem State.setP_apu (s : State) (p : Flags) : (s.setP p).apu = s.apu := rfl
@[simp] theorem State.setP_pads (s : State) (p : Flags) : (s.setP p).pads = s.pads := rfl
@[simp] theorem State.setP_inputs (s : State) (p : Flags) : (s.setP p).inputs = s.inputs := rfl
@[simp] theorem State.setP_trace (s : State) (p : Flags) : (s.setP p).trace = s.trace := rfl

@[simp] theorem State.addCycles_regs (s : State) (n : Nat) : (s.addCycles n).regs = s.regs := rfl
@[simp] theorem State.addCycles_ctl (s : State) (n : Nat) :
    (s.addCycles n).ctl = { s.ctl with stepCycles := s.ctl.stepCycles + n } := rfl
@[simp] theorem State.addCycles_ram (s : State) (n : Nat) : (s.addCycles n).ram = s.ram := rfl
@[simp] theorem State.addCycles_busLatch (s : State) (n : Nat) : (s.addCycles n).busLatch = s.busLatch := rfl
@[simp] theorem State.addCycles_cart (s : State) (n : Nat) : (s.addCycles n).cart = s.cart := rfl
@[simp] theorem State.addCycles_ppu (s : State) (n : Nat) : (s.addCycles n).ppu = s.ppu := rfl
@[simp] theorem State.addCycles_apu (s : State) (n : Nat) : (s.addCycles n).apu = s.apu := rfl
@[simp] theorem State.addCycles_pads (s : State) (n : Nat) : (s.addCycles n).pads = s.pads := rfl
@[simp] theorem State.addCycles_inputs (s : State) (n : Nat) : (s.addCycles n).inputs = s.inputs := rfl
@[simp] theorem State.addCycles_trace (s : State) (n : Nat) : (s.addCycles n).trace = s.trace := rfl

@[simp] theorem State.begin_regs (s : State) (b : Nat) : (s.begin b).regs = s.regs := rfl
@[simp] theorem State.begin_ctl (s : State) (b : Nat) :
    (s.begin b).ctl = { s.ctl with stepBase := b, stepCycles := s.ctl.stepCycles + b } := rfl
@[simp] theorem State.begin_ram (s : State) (b : Nat) : (s.begin b).ram = s.ram := rfl
@[simp] theorem State.begin_busLatch (s : State) (b : Nat) : (s.begin b).busLatch = s.busLatch := rfl
@[simp] theorem State.begin_cart (s : State) (b : Nat) : (s.begin b).cart = s.cart := rfl
@[simp] theorem State.begin_ppu (s : State) (b : Nat) : (s.begin b).ppu = s.ppu := rfl
@[simp] theorem State.begin_apu (s : State) (b : Nat) : (s.begin b).apu = s.apu := rfl
@[simp] theorem State.begin_pads (s : State) (b : Nat) : (s.begin b).pads = s.pads := rfl
@[simp] theorem State.begin_inputs (s : State) (b : Nat) : (s.begin b).inputs = s.inputs := rfl
@[simp] theorem State.begin_trace (s : State) (b : Nat) : (s.begin b).trace = s.trace := rfl

@[simp] theorem State.setPpu_regs (s : State) (p : Ppu) : (s.setPpu p).regs = s.regs := rfl
@[simp] theorem State.setPpu_ctl (s : State) (p : Ppu) :
    (s.setPpu p).ctl = { s.ctl with nmiPending := s.ctl.nmiPending || (!s.ppu.nmiOut && p.nmiOut) } := rfl
@[simp] theorem State.setPpu_ram (s : State) (p : Ppu) : (s.setPpu p).ram = s.ram := rfl
@[simp] theorem State.setPpu_busLatch (s : State) (p : Ppu) : (s.setPpu p).busLatch = s.busLatch := rfl
@[simp] theorem State.setPpu_cart (s : State) (p : Ppu) : (s.setPpu p).cart = s.cart := rfl
@[simp] theorem State.setPpu_ppu (s : State) (p : Ppu) : (s.setPpu p).ppu = p := rfl
@[simp] theorem State.setPpu_apu (s : State) (p : Ppu) : (s.setPpu p).apu = s.apu := rfl
@[simp] theorem State.setPpu_pads (s : State) (p : Ppu) : (s.setPpu p).pads = s.pads := rfl
@[simp] theorem State.setPpu_inputs (s : State) (p : Ppu) : (s.setPpu p).inputs = s.inputs := rfl
@[simp] theorem State.setPpu_trace (s : State) (p : Ppu) : (s.setPpu p).trace = s.trace := rfl

@[simp] theorem State.conclude_regs (s : State) (k : AccessKind) (c : Nat) (a : Word) (v : Byte) :
    (s.conclude k c a v).regs = s.regs := rfl
@[simp] theorem State.conclude_ctl (s : State) (k : AccessKind) (c : Nat) (a : Word) (v : Byte) :
    (s.conclude k c a v).ctl = s.ctl := rfl
@[simp] theorem State.conclude_ram (s : State) (k : AccessKind) (c : Nat) (a : Word) (v : Byte) :
    (s.conclude k c a v).ram = s.ram := rfl
@[simp] theorem State.conclude_busLatch (s : State) (k : AccessKind) (c : Nat) (a : Word) (v : Byte) :
    (s.conclude k c a v).busLatch = v := rfl
@[simp] theorem State.conclude_cart (s : State) (k : AccessKind) (c : Nat) (a : Word) (v : Byte) :
    (s.conclude k c a v).cart = s.cart := rfl
@[simp] theorem State.conclude_ppu (s : State) (k : AccessKind) (c : Nat) (a : Word) (v : Byte) :
    (s.conclude k c a v).ppu = s.ppu := rfl
@[simp] theorem State.conclude_apu (s : State) (k : AccessKind) (c : Nat) (a : Word) (v : Byte) :
    (s.conclude k c a v).apu = s.apu := rfl
@[simp] theorem State.conclude_pads (s : State) (k : AccessKind) (c : Nat) (a : Word) (v : Byte) :
    (s.conclude k c a v).pads = s.pads := rfl
@[simp] theorem State.conclude_inputs (s : State) (k : AccessKind) (c : Nat) (a : Word) (v : Byte) :
    (s.conclude k c a v).inputs = s.inputs := rfl
@[simp] theorem State.conclude_trace (s : State) (k : AccessKind) (c : Nat) (a : Word) (v : Byte) :
    (s.conclude k c a v).trace = { address := a, value := v, kind := k, frame := s.ppu.frame, cycle := c, programCounter := s.ctl.instrPc, snapshot := (s.inputs.buttons1, s.inputs.buttons2) } :: s.trace := rfl

@[simp] theorem State.startStep_regs (s : State) : s.startStep.regs = s.regs := rfl
@[simp] theorem State.startStep_ctl (s : State) :
    s.startStep.ctl = { s.ctl with instrPc := s.regs.pc, instrCycle := s.ctl.cyclesTotal, stepCycles := 0, stepBase := 0 } := rfl
@[simp] theorem State.startStep_ram (s : State) : s.startStep.ram = s.ram := rfl
@[simp] theorem State.startStep_busLatch (s : State) : s.startStep.busLatch = s.busLatch := rfl
@[simp] theorem State.startStep_cart (s : State) : s.startStep.cart = s.cart := rfl
@[simp] theorem State.startStep_ppu (s : State) : s.startStep.ppu = s.ppu := rfl
@[simp] theorem State.startStep_apu (s : State) : s.startStep.apu = s.apu := rfl
@[simp] theorem State.startStep_pads (s : State) : s.startStep.pads = s.pads := rfl
@[simp] theorem State.startStep_inputs (s : State) : s.startStep.inputs = s.inputs := rfl
@[simp] theorem State.startStep_trace (s : State) : s.startStep.trace = s.trace := rfl

@[simp] theorem State.payStall_regs (s : State) : s.payStall.regs = s.regs := rfl
@[simp] theorem State.payStall_ctl (s : State) :
    s.payStall.ctl = { s.ctl with stepCycles := s.ctl.stepCycles + s.ctl.stallCycles, stallCycles := 0 } := rfl
@[simp] theorem State.payStall_ram (s : State) : s.payStall.ram = s.ram := rfl
@[simp] theorem State.payStall_busLatch (s : State) : s.payStall.busLatch = s.busLatch := rfl
@[simp] theorem State.payStall_cart (s : State) : s.payStall.cart = s.cart := rfl
@[simp] theorem State.payStall_ppu (s : State) : s.payStall.ppu = s.ppu := rfl
@[simp] theorem State.payStall_apu (s : State) : s.payStall.apu = s.apu := rfl
@[simp] theorem State.payStall_pads (s : State) : s.payStall.pads = s.pads := rfl
@[simp] theorem State.payStall_inputs (s : State) : s.payStall.inputs = s.inputs := rfl
@[simp] theorem State.payStall_trace (s : State) : s.payStall.trace = s.trace := rfl

@[simp] theorem State.clearNmi_regs (s : State) : s.clearNmi.regs = s.regs := rfl
@[simp] theorem State.clearNmi_ctl (s : State) : s.clearNmi.ctl = { s.ctl with nmiPending := false } := rfl
@[simp] theorem State.clearNmi_ram (s : State) : s.clearNmi.ram = s.ram := rfl
@[simp] theorem State.clearNmi_busLatch (s : State) : s.clearNmi.busLatch = s.busLatch := rfl
@[simp] theorem State.clearNmi_cart (s : State) : s.clearNmi.cart = s.cart := rfl
@[simp] theorem State.clearNmi_ppu (s : State) : s.clearNmi.ppu = s.ppu := rfl
@[simp] theorem State.clearNmi_apu (s : State) : s.clearNmi.apu = s.apu := rfl
@[simp] theorem State.clearNmi_pads (s : State) : s.clearNmi.pads = s.pads := rfl
@[simp] theorem State.clearNmi_inputs (s : State) : s.clearNmi.inputs = s.inputs := rfl
@[simp] theorem State.clearNmi_trace (s : State) : s.clearNmi.trace = s.trace := rfl

@[simp] theorem State.raise_regs (s : State) (f : IllegalOp) : (s.raise f).regs = s.regs := rfl
@[simp] theorem State.raise_ctl (s : State) (f : IllegalOp) :
    (s.raise f).ctl = { s.ctl with fault := some f, lastResult := .fault f } := rfl
@[simp] theorem State.raise_ram (s : State) (f : IllegalOp) : (s.raise f).ram = s.ram := rfl
@[simp] theorem State.raise_busLatch (s : State) (f : IllegalOp) : (s.raise f).busLatch = s.busLatch := rfl
@[simp] theorem State.raise_cart (s : State) (f : IllegalOp) : (s.raise f).cart = s.cart := rfl
@[simp] theorem State.raise_ppu (s : State) (f : IllegalOp) : (s.raise f).ppu = s.ppu := rfl
@[simp] theorem State.raise_apu (s : State) (f : IllegalOp) : (s.raise f).apu = s.apu := rfl
@[simp] theorem State.raise_pads (s : State) (f : IllegalOp) : (s.raise f).pads = s.pads := rfl
@[simp] theorem State.raise_inputs (s : State) (f : IllegalOp) : (s.raise f).inputs = s.inputs := rfl
@[simp] theorem State.raise_trace (s : State) (f : IllegalOp) : (s.raise f).trace = s.trace := rfl

end Sys2Proof.Machine
end

