-- ==== Sys2Proof/Laws/Store.lean ====
section
/-! SUPPORT. The laws of sparse memories: what a read gives after a write, and that every operation keeps the canonical form
and the bound on the indexes. -/

namespace Sys2Proof.Machine

variable {w : Nat}

@[simp] theorem Store.read_nil (k : Nat) : Store.read ([] : Store w) k = Store.unlisted w := rfl

theorem Store.read_cons (j : Nat) (b : BitVec w) (r : Store w) (k : Nat) :
    Store.read ((j, b) :: r) k = if j = k then b else Store.read r k := rfl

/-- An index below every listed one is unlisted. -/
theorem Store.read_of_lt (m : Store w) (k : Nat) (h : ∀ e ∈ m, k < e.1) : Store.read m k = Store.unlisted w := by
  induction m with
  | nil => rfl
  | cons e r ih =>
    have he : k < e.1 := h e (by simp)
    have : ¬ e.1 = k := by omega
    rw [show e = (e.1, e.2) from rfl, Store.read_cons, if_neg this]
    exact ih fun x hx => h x (by simp [hx])

/-- Reading what `keep` made: the entry at its index, the rest elsewhere. -/
theorem Store.read_keep (k : Nat) (b : BitVec w) (r : Store w) (h : ∀ e ∈ r, k < e.1) (j : Nat) :
    Store.read (Store.keep k b r) j = if j = k then b else Store.read r j := by
  unfold Store.keep
  split
  · subst_vars
    split
    · subst_vars; exact Store.read_of_lt r _ h
    · rfl
  · rw [Store.read_cons]
    by_cases hj : j = k
    · simp [hj]
    · simp [hj, Ne.symm hj]

/-- Every index `keep` lists is its own or one of the rest. -/
theorem Store.mem_keep {k : Nat} {b : BitVec w} {r : Store w} {e : Nat × BitVec w} (h : e ∈ Store.keep k b r) :
    e = (k, b) ∨ e ∈ r := by
  unfold Store.keep at h
  split at h
  · exact .inr h
  · simpa using h

/-- `keep` keeps the canonical form. -/
theorem Store.wf_keep (k : Nat) (b : BitVec w) (r : Store w) (hr : Store.Wf r) (h : ∀ e ∈ r, k < e.1) :
    Store.Wf (Store.keep k b r) := by
  unfold Store.keep
  split
  · exact hr
  · refine ⟨List.pairwise_cons.mpr ⟨h, hr.1⟩, fun e he => ?_⟩
    rcases List.mem_cons.mp he with rfl | he
    · assumption
    · exact hr.2 e he

/-- Every entry after a write is the written one or was there before. -/
theorem Store.mem_write {m : Store w} {k : Nat} {b : BitVec w} {e : Nat × BitVec w} (h : e ∈ Store.write m k b) :
    e = (k, b) ∨ e ∈ m := by
  induction m with
  | nil => exact (Store.mem_keep h).imp_right (by simp)
  | cons x r ih =>
    obtain ⟨j, c⟩ := x
    unfold Store.write at h
    split at h
    · exact Store.mem_keep h
    · split at h
      · exact (Store.mem_keep h).imp_right fun hx => List.mem_cons_of_mem _ hx
      · rcases List.mem_cons.mp h with rfl | h
        · exact .inr (by simp)
        · exact (ih h).imp_right fun hx => List.mem_cons_of_mem _ hx

/-- In a canonical list every later index is above the first. -/
theorem Store.Wf.head_lt {j : Nat} {c : BitVec w} {r : Store w} (h : Store.Wf ((j, c) :: r)) : ∀ e ∈ r, j < e.1 :=
  (List.pairwise_cons.mp h.1).1

/-- The rest of a canonical list is canonical. -/
theorem Store.Wf.tail {e : Nat × BitVec w} {r : Store w} (h : Store.Wf (e :: r)) : Store.Wf r :=
  ⟨(List.pairwise_cons.mp h.1).2, fun x hx => h.2 x (List.mem_cons_of_mem _ hx)⟩

/-- A write keeps the canonical form. -/
theorem Store.wf_write {m : Store w} (h : Store.Wf m) (k : Nat) (b : BitVec w) : Store.Wf (Store.write m k b) := by
  induction m with
  | nil => exact Store.wf_keep k b [] h (by simp)
  | cons x r ih =>
    obtain ⟨j, c⟩ := x
    have hlt := Store.Wf.head_lt h
    unfold Store.write
    split
    · refine Store.wf_keep k b _ h fun e he => ?_
      rcases List.mem_cons.mp he with rfl | he
      · assumption
      · have := hlt e he; omega
    · split
      · subst_vars; exact Store.wf_keep _ b r h.tail hlt
      · have hw := ih h.tail
        refine ⟨List.pairwise_cons.mpr ⟨fun e he => ?_, hw.1⟩, fun e he => ?_⟩
        · rcases Store.mem_write he with rfl | he
          · show j < k; omega
          · exact hlt e he
        · rcases List.mem_cons.mp he with rfl | he
          · exact h.2 _ (by simp)
          · exact hw.2 e he

/-- A write below the bound keeps every index below it. -/
theorem Store.within_write {m : Store w} {size : Nat} (h : Store.Within m size) {k : Nat} (hk : k < size) (b : BitVec w) :
    Store.Within (Store.write m k b) size := by
  intro e he
  rcases Store.mem_write he with rfl | he
  · exact hk
  · exact h e he

/-- Read after write, in a canonical memory: the written entry, and every other one as before. -/
theorem Store.read_write {m : Store w} (h : Store.Wf m) (k : Nat) (b : BitVec w) (j : Nat) :
    Store.read (Store.write m k b) j = if j = k then b else Store.read m j := by
  induction m with
  | nil => exact Store.read_keep k b [] (by simp) j
  | cons x r ih =>
    obtain ⟨i, c⟩ := x
    have hlt := Store.Wf.head_lt h
    unfold Store.write
    split
    · refine Store.read_keep k b _ (fun e he => ?_) j
      rcases List.mem_cons.mp he with rfl | he
      · assumption
      · have := hlt e he; omega
    · split
      · subst_vars
        rw [Store.read_keep _ b r hlt, Store.read_cons]
        split
        · rfl
        · rw [if_neg (Ne.symm ‹_›)]
      · rw [Store.read_cons, Store.read_cons, ih h.tail]
        by_cases hj : j = k
        · subst hj
          rw [if_neg (by omega), if_pos rfl, if_pos rfl]
        · simp only [hj, if_false]

/-- Reading back what was written. -/
theorem Store.read_write_self {m : Store w} (h : Store.Wf m) (k : Nat) (b : BitVec w) :
    Store.read (Store.write m k b) k = b := by rw [Store.read_write h, if_pos rfl]

/-- A write leaves every other index as it was. -/
theorem Store.read_write_ne {m : Store w} (h : Store.Wf m) {j k : Nat} (b : BitVec w) (hj : j ≠ k) :
    Store.read (Store.write m k b) j = Store.read m j := by rw [Store.read_write h, if_neg hj]

/-- Every index the memory of a byte string lists lies in its range. -/
theorem Store.mem_ofBytes {bs : List Byte} {k : Nat} {e : Host.Cell} (h : e ∈ Store.ofBytes bs k) :
    k ≤ e.1 ∧ e.1 < k + bs.length := by
  induction bs generalizing k with
  | nil => simp [Store.ofBytes] at h
  | cons b r ih =>
    simp only [List.length_cons]
    rcases Store.mem_keep (show e ∈ Store.keep k b (Store.ofBytes r (k + 1)) from h) with rfl | h
    · constructor <;> omega
    · have := ih h; omega

/-- The memory of a byte string is canonical. -/
theorem Store.wf_ofBytes (bs : List Byte) (k : Nat) : Store.Wf (Store.ofBytes bs k) := by
  induction bs generalizing k with
  | nil => exact ⟨List.Pairwise.nil, fun _ h => absurd h List.not_mem_nil⟩
  | cons b r ih =>
    refine Store.wf_keep k b _ (ih _) fun e he => ?_
    have := Store.mem_ofBytes he
    omega

/-- The memory of a byte string lies within its length. -/
theorem Store.within_ofBytes (bs : List Byte) : Store.Within (Store.ofBytes bs 0) bs.length := fun e he => by
  have := Store.mem_ofBytes (show e ∈ Store.ofBytes bs 0 from he)
  omega

/-- The memory of a byte string reads as the string. -/
theorem Store.read_ofBytes (bs : List Byte) (k j : Nat) :
    Store.read (Store.ofBytes bs k) j = if k ≤ j then bs.getD (j - k) 0 else 0 := by
  induction bs generalizing k with
  | nil => simp [Store.ofBytes, Store.unlisted]
  | cons b r ih =>
    show Store.read (Store.keep k b (Store.ofBytes r (k + 1))) j = _
    rw [Store.read_keep k b _ (fun e he => by have := Store.mem_ofBytes he; omega), ih]
    by_cases h1 : j = k
    · subst h1; simp
    · rw [if_neg h1]
      by_cases h2 : k ≤ j
      · obtain ⟨d, hd⟩ : ∃ d, j - k = d + 1 := ⟨j - k - 1, by omega⟩
        rw [if_pos h2, if_pos (by omega), hd, show j - (k + 1) = d by omega]
        rfl
      · rw [if_neg h2, if_neg (by omega)]

/-- The empty memory is canonical and within every bound. -/
theorem Store.wf_nil : Store.Wf ([] : Store w) := ⟨List.Pairwise.nil, fun _ h => absurd h List.not_mem_nil⟩

theorem Store.within_nil (size : Nat) : Store.Within ([] : Store w) size := fun _ h => absurd h List.not_mem_nil

/-- The test and the proposition agree. -/
theorem Memory.wf_iff (m : Memory) : Memory.wf m = true ↔ Store.Wf m := by simp [Memory.wf]

end Sys2Proof.Machine
end

