-- ==== Sys2Proof/Laws/Bus.lean ====
section
/-! SUPPORT. What each bus operation can do, said once: a read of a region, a transaction, the stack, the vectors, the
zero-page pointers. -/

namespace Sys2Proof.Machine

/-! ### Addresses of page zero and of the stack -/

@[simp] theorem zeroPage_toNat (n : Byte) : (zeroPage n).toNat = n.toNat := by
  have := n.isLt
  simp [zeroPage]
  omega

@[simp] theorem stackAddr_toNat (sp : Byte) : (stackAddr sp).toNat = 256 + sp.toNat := by
  have := sp.isLt
  simp [stackAddr]

/-! ### Regions -/

theorem regionOf_ram {a : Word} (h : a.toNat < 0x2000) : regionOf a = .ram := by simp [regionOf, h]

theorem regionOf_ppu {a : Word} (h : 0x2000 ≤ a.toNat) (h' : a.toNat < 0x4000) : regionOf a = .ppuReg (a.toNat % 8) := by
  simp [regionOf, Nat.not_lt.mpr h, h']

theorem regionOf_apu {a : Word} (h : 0x4000 ≤ a.toNat) (h' : a.toNat < 0x4014) :
    regionOf a = .apuReg (a.toNat - 0x4000) := by
  simp [regionOf, show ¬ a.toNat < 0x2000 by omega, Nat.not_lt.mpr h, h']

theorem regionOf_unused {a : Word} (h : 0x4018 ≤ a.toNat) (h' : a.toNat < 0x4020) : regionOf a = .unused := by
  simp [regionOf, show ¬ a.toNat < 0x2000 by omega, show ¬ a.toNat < 0x4000 by omega, show ¬ a.toNat < 0x4014 by omega,
    show a.toNat ≠ 0x4014 by omega, show a.toNat ≠ 0x4015 by omega, show a.toNat ≠ 0x4016 by omega,
    show a.toNat ≠ 0x4017 by omega, h']

theorem regionOf_cart {a : Word} (h : 0x4020 ≤ a.toNat) : regionOf a = .cart := by
  simp [regionOf, show ¬ a.toNat < 0x2000 by omega, show ¬ a.toNat < 0x4000 by omega, show ¬ a.toNat < 0x4014 by omega,
    show a.toNat ≠ 0x4014 by omega, show a.toNat ≠ 0x4015 by omega, show a.toNat ≠ 0x4016 by omega,
    show a.toNat ≠ 0x4017 by omega, Nat.not_lt.mpr h]

/-- The regions an address can select, with the addresses of each. -/
theorem regionOf_cases (a : Word) :
    (a.toNat < 0x2000 ∧ regionOf a = .ram) ∨
    (0x2000 ≤ a.toNat ∧ a.toNat < 0x4000 ∧ regionOf a = .ppuReg (a.toNat % 8)) ∨
    (0x4000 ≤ a.toNat ∧ a.toNat < 0x4014 ∧ regionOf a = .apuReg (a.toNat - 0x4000)) ∨
    (a.toNat = 0x4014 ∧ regionOf a = .oamDma) ∨ (a.toNat = 0x4015 ∧ regionOf a = .apuStatus) ∨
    (a.toNat = 0x4016 ∧ regionOf a = .pad1) ∨ (a.toNat = 0x4017 ∧ regionOf a = .pad2) ∨
    (0x4018 ≤ a.toNat ∧ a.toNat < 0x4020 ∧ regionOf a = .unused) ∨ (0x4020 ≤ a.toNat ∧ regionOf a = .cart) := by
  rcases Nat.lt_or_ge a.toNat 0x2000 with h | h
  · exact .inl ⟨h, regionOf_ram h⟩
  rcases Nat.lt_or_ge a.toNat 0x4000 with h1 | h1
  · exact .inr (.inl ⟨h, h1, regionOf_ppu h h1⟩)
  rcases Nat.lt_or_ge a.toNat 0x4014 with h2 | h2
  · exact .inr (.inr (.inl ⟨h1, h2, regionOf_apu h1 h2⟩))
  rcases Nat.lt_or_ge a.toNat 0x4018 with h3 | h3
  · have : a.toNat = 0x4014 ∨ a.toNat = 0x4015 ∨ a.toNat = 0x4016 ∨ a.toNat = 0x4017 := by omega
    rcases this with e | e | e | e <;> simp [regionOf, e]
  rcases Nat.lt_or_ge a.toNat 0x4020 with h4 | h4
  · simp [regionOf_unused h3 h4, h3, h4]
  · simp [regionOf_cart h4, h4]

/-! ### Reading a region -/

/-- A read of a PPU register changes only the latches of the registers whose reads have side effects. -/
theorem Ppu.readReg_frame (c : Cart) (p : Ppu) (r : Nat) :
    (p.readReg c r).2 =
      { p with
        vblank := (p.readReg c r).2.vblank, w := (p.readReg c r).2.w, readBuffer := (p.readReg c r).2.readBuffer,
        v := (p.readReg c r).2.v, ioLatch := (p.readReg c r).2.ioLatch } := by
  unfold Ppu.readReg Ppu.readRegCore Ppu.readData Ppu.bumpV
  split <;> (try split) <;> rfl

/-- A read of a PPU register never raises the NMI output. -/
theorem Ppu.readReg_nmiOut (c : Cart) (p : Ppu) (r : Nat) (h : p.nmiOut = false) : (p.readReg c r).2.nmiOut = false := by
  have hc : (p.readReg c r).2.ctrl = p.ctrl := by rw [Ppu.readReg_frame]
  have hv : (p.readReg c r).2.vblank = true → p.vblank = true := by
    unfold Ppu.readReg Ppu.readRegCore Ppu.readData Ppu.bumpV
    split <;> (try split) <;> simp
  simp only [Ppu.nmiOut, hc, Bool.and_eq_false_iff] at h ⊢
  rcases h with h | h
  · left
    cases e : (p.readReg c r).2.vblank
    · rfl
    · rw [hv e] at h; exact h
  · exact .inr h

/-- A PPU register read latches no NMI. -/
theorem State.setPpu_readReg_ctl (s : State) (r : Nat) : (s.setPpu (s.ppu.readReg s.cart r).2).ctl = s.ctl := by
  have : (!s.ppu.nmiOut && (s.ppu.readReg s.cart r).2.nmiOut) = false := by
    cases h : s.ppu.nmiOut
    · simp [Ppu.readReg_nmiOut s.cart s.ppu r h]
    · simp
  simp [this]

/-- Reading a region keeps the registers, and is a read. -/
theorem readRegion_frame (a : Word) (s : State) :
    (readRegion a s).2.regs = s.regs ∧ (readRegion a s).2.ctl = s.ctl ∧ (readRegion a s).2.busLatch = s.busLatch ∧
      (readRegion a s).2.trace = s.trace ∧ OnlyReads s (readRegion a s).2 := by
  unfold readRegion
  split
  all_goals try exact ⟨rfl, rfl, rfl, rfl, ⟨rfl, rfl, rfl, rfl, rfl, rfl, rfl⟩⟩
  · refine ⟨rfl, State.setPpu_readReg_ctl s _, rfl, rfl, ⟨?_, rfl, rfl, ?_, rfl, rfl, rfl⟩⟩
    · rw [State.setPpu_readReg_ctl]
    · exact Ppu.readReg_frame s.cart s.ppu _
  · refine ⟨rfl, rfl, rfl, rfl, ⟨rfl, rfl, rfl, rfl, rfl, ?_, rfl⟩⟩
    show (s.pads.read1 s.inputs).2 = _
    unfold Pads.read1
    split <;> rfl
  · refine ⟨rfl, rfl, rfl, rfl, ⟨rfl, rfl, rfl, rfl, rfl, ?_, rfl⟩⟩
    show (s.pads.read2 s.inputs).2 = _
    unfold Pads.read2
    split <;> rfl

/-- The regions whose reads change nothing: storage, open bus and unused addresses. -/
theorem readRegion_quiet {a : Word} {s : State} (h : a.toNat < 0x2000 ∨ 0x4018 ≤ a.toNat) : (readRegion a s).2 = s := by
  rcases regionOf_cases a with ⟨_, e⟩ | ⟨_, _, e⟩ | ⟨_, _, e⟩ | ⟨_, e⟩ | ⟨_, e⟩ | ⟨_, e⟩ | ⟨_, e⟩ | ⟨_, _, e⟩ | ⟨_, e⟩ <;>
    first | omega | simp [readRegion, e]

/-- Every read outside the devices' windows changes nothing. -/
theorem readRegion_noDevice {a : Word} {s : State} (h : readsDevice a = false) : (readRegion a s).2 = s := by
  have h : ¬ (0x2000 ≤ a.toNat ∧ a.toNat < 0x4000) ∧ ¬ (0x4015 ≤ a.toNat ∧ a.toNat < 0x4018) := by
    simpa [readsDevice] using h
  rcases regionOf_cases a with ⟨_, e⟩ | ⟨_, _, e⟩ | ⟨_, _, e⟩ | ⟨_, e⟩ | ⟨_, e⟩ | ⟨_, e⟩ | ⟨_, e⟩ | ⟨_, _, e⟩ | ⟨_, e⟩ <;>
    first | omega | simp [readRegion, e]

/-! ### Reads only -/

theorem OnlyReads.refl (s : State) : OnlyReads s s := ⟨rfl, rfl, rfl, rfl, rfl, rfl, rfl⟩

theorem OnlyReads.trans {s t u : State} (h : OnlyReads s t) (k : OnlyReads t u) : OnlyReads s u where
  ctl := by rw [k.ctl, h.ctl]
  ram := k.ram.trans h.ram
  cart := k.cart.trans h.cart
  ppu := by rw [k.ppu, h.ppu]
  apu := by rw [k.apu, h.apu]
  pads := by rw [k.pads, h.pads]
  inputs := k.inputs.trans h.inputs

/-- Changes of the registers, the latch, the trace and the cycle count are no more than reads. -/
theorem OnlyReads.of_eq {s t : State} (h : t.ctl = { s.ctl with stepCycles := t.ctl.stepCycles, stepBase := t.ctl.stepBase })
    (hr : t.ram = s.ram) (hc : t.cart = s.cart) (hp : t.ppu = s.ppu) (ha : t.apu = s.apu) (hd : t.pads = s.pads)
    (hi : t.inputs = s.inputs) : OnlyReads s t :=
  ⟨h, hr, hc, by rw [hp], by rw [ha], by rw [hd], hi⟩

/-- A storage byte depends on RAM, the cartridge and nothing else. -/
theorem State.peek_congr {s t : State} (hr : t.ram = s.ram) (hc : t.cart = s.cart) {a : Word} (h : isStorage a = true) :
    t.peek a = s.peek a := by
  have : a.toNat < 0x2000 ∨ 0x6000 ≤ a.toNat := by simpa [isStorage] using h
  rcases this with h | h
  · simp [State.peek, readRegion, regionOf_ram h, hr]
  · simp only [State.peek, readRegion, regionOf_cart (show 0x4020 ≤ a.toNat by omega), hc, Cart.read,
      show ¬ a.toNat < 0x6000 by omega, if_false]

/-- Reads leave every byte of storage as it was. -/
theorem OnlyReads.peek {s t : State} (h : OnlyReads s t) {a : Word} (ha : isStorage a = true) : t.peek a = s.peek a :=
  State.peek_congr h.ram h.cart ha

/-- The byte at a RAM address. -/
theorem State.peek_ram {s : State} {a : Word} (h : a.toNat < 0x2000) : s.peek a = Store.read s.ram (a.toNat % 0x800) := by
  simp [State.peek, readRegion, regionOf_ram h, ramIndex]

/-- The byte at a PRG RAM address. -/
theorem State.peek_prgRam {s : State} {a : Word} (h : 0x6000 ≤ a.toNat) (h' : a.toNat < 0x8000) :
    s.peek a = Store.read s.cart.prgRam (a.toNat - 0x6000) := by
  simp [State.peek, readRegion, regionOf_cart (show 0x4020 ≤ a.toNat by omega), Cart.read, show ¬ a.toNat < 0x6000 by omega,
    h']

/-- The byte at a ROM address. -/
theorem State.peek_rom {s : State} {a : Word} (h : 0x8000 ≤ a.toNat) :
    s.peek a = Store.read s.cart.prgRom (s.cart.mapCpu a.toNat) := by
  simp [State.peek, readRegion, regionOf_cart (show 0x4020 ≤ a.toNat by omega), Cart.read, show ¬ a.toNat < 0x6000 by omega,
    show ¬ a.toNat < 0x8000 by omega]

/-! ### Transactions -/

@[simp] theorem busReadAt_fst (c : Nat) (a : Word) (s : State) : (busReadAt c a s).1 = (readRegion a s).1 := rfl

@[simp] theorem busRead_fst (a : Word) (s : State) : (busRead a s).1 = s.peek a := rfl

theorem busRead_snd (a : Word) (s : State) :
    (busRead a s).2 = (readRegion a s).2.conclude .read s.ctl.instrCycle a (s.peek a) := rfl

@[simp] theorem busRead_regs (a : Word) (s : State) : (busRead a s).2.regs = s.regs := (readRegion_frame a s).1

@[simp] theorem busRead_ctl (a : Word) (s : State) : (busRead a s).2.ctl = s.ctl := (readRegion_frame a s).2.1

@[simp] theorem busRead_busLatch (a : Word) (s : State) : (busRead a s).2.busLatch = s.peek a := rfl

@[simp] theorem busRead_ram (a : Word) (s : State) : (busRead a s).2.ram = s.ram := (readRegion_frame a s).2.2.2.2.ram

@[simp] theorem busRead_cart (a : Word) (s : State) : (busRead a s).2.cart = s.cart := (readRegion_frame a s).2.2.2.2.cart

@[simp] theorem busRead_inputs (a : Word) (s : State) : (busRead a s).2.inputs = s.inputs :=
  (readRegion_frame a s).2.2.2.2.inputs

/-- The event a transaction of the CPU step delivers. -/
def State.event (s : State) (k : AccessKind) (a : Word) (v : Byte) : BusEvent :=
  { address := a, value := v, kind := k, frame := s.ppu.frame, cycle := s.ctl.instrCycle, programCounter := s.ctl.instrPc,
    snapshot := (s.inputs.buttons1, s.inputs.buttons2) }

/-- A read delivers one event. -/
theorem busRead_trace (a : Word) (s : State) : (busRead a s).2.trace = s.event .read a (s.peek a) :: s.trace := by
  obtain ⟨_, hc, _, ht, ho⟩ := readRegion_frame a s
  rw [busRead_snd, State.conclude_trace, hc, ht, ho.inputs, ho.ppu]
  rfl

/-- A transaction that only reads. -/
theorem OnlyReads.busRead (a : Word) (s : State) : OnlyReads s (Machine.busRead a s).2 := by
  have h := (readRegion_frame a s).2.2.2.2
  exact ⟨h.ctl, h.ram, h.cart, h.ppu, h.apu, h.pads, h.inputs⟩

/-- A read of storage changes the bus latch and the trace, nothing else. -/
theorem busRead_storage {a : Word} {s : State} (h : a.toNat < 0x2000 ∨ 0x4018 ≤ a.toNat) :
    (busRead a s).2 = { s with busLatch := s.peek a, trace := s.event .read a (s.peek a) :: s.trace } := by
  rw [busRead_snd, readRegion_quiet h]
  rfl

theorem SameDevices.refl (s : State) : SameDevices s s := ⟨rfl, rfl, rfl⟩

theorem SameDevices.trans {s t u : State} (h : SameDevices s t) (k : SameDevices t u) : SameDevices s u :=
  ⟨k.ppu.trans h.ppu, k.apu.trans h.apu, k.pads.trans h.pads⟩

/-- A read outside the devices' windows leaves the devices as they were. -/
theorem SameDevices.busRead {a : Word} (s : State) (h : readsDevice a = false) : SameDevices s (Machine.busRead a s).2 := by
  rw [busRead_snd, readRegion_noDevice h]
  exact ⟨rfl, rfl, rfl⟩

/-- A write of storage. -/
theorem plainWrite_ram {a : Word} {v : Byte} {s : State} (h : a.toNat < 0x2000) :
    plainWrite a v s =
      { s with
        ram := Store.write s.ram (a.toNat % 0x800) v, busLatch := v, trace := s.event .write a v :: s.trace } := by
  simp only [plainWrite, writeRegion, regionOf_ram h, ramIndex]
  rfl

theorem busWrite_ne {a : Word} (v : Byte) (s : State) (h : a ≠ 0x4014) : busWrite a v s = plainWrite a v s := if_neg h

theorem busWrite_dma (v : Byte) (s : State) : busWrite 0x4014 v s = oamDma v (plainWrite 0x4014 v s) := if_pos rfl

theorem ne_of_toNat_ne {a b : Word} (h : a.toNat ≠ b.toNat) : a ≠ b := fun e => h (by rw [e])

/-- A write to internal RAM. -/
theorem busWrite_ram {a : Word} {v : Byte} {s : State} (h : a.toNat < 0x2000) :
    busWrite a v s =
      { s with
        ram := Store.write s.ram (a.toNat % 0x800) v, busLatch := v, trace := s.event .write a v :: s.trace } := by
  rw [busWrite_ne v s (ne_of_toNat_ne (by rw [show (0x4014 : Word).toNat = 0x4014 from rfl]; omega)), plainWrite_ram h]

/-! ### Stack -/

/-- A push stores in the stack page and decrements S. -/
theorem push_eq (v : Byte) (s : State) :
    push v s =
      { s with
        regs := { s.regs with sp := s.regs.sp - 1 }
        ram := Store.write s.ram (256 + s.regs.sp.toNat) v
        busLatch := v
        trace := s.event .write (stackAddr s.regs.sp) v :: s.trace } := by
  have := s.regs.sp.isLt
  have h : (stackAddr s.regs.sp).toNat < 0x2000 := by rw [stackAddr_toNat]; omega
  rw [push, busWrite_ram h, stackAddr_toNat, show (256 + s.regs.sp.toNat) % 0x800 = 256 + s.regs.sp.toNat by omega]
  rfl

/-- A pull reads the stack page after incrementing S. -/
theorem pull_eq (s : State) :
    pull s =
      (Store.read s.ram (256 + (s.regs.sp + 1).toNat),
        { s with
          regs := { s.regs with sp := s.regs.sp + 1 }
          busLatch := Store.read s.ram (256 + (s.regs.sp + 1).toNat)
          trace :=
            s.event .read (stackAddr (s.regs.sp + 1)) (Store.read s.ram (256 + (s.regs.sp + 1).toNat)) :: s.trace }) := by
  have := (s.regs.sp + 1).isLt
  have h : (stackAddr (s.regs.sp + 1)).toNat < 0x2000 := by rw [stackAddr_toNat]; omega
  have hp : (s.setSp (s.regs.sp + 1)).peek (stackAddr (s.regs.sp + 1)) = Store.read s.ram (256 + (s.regs.sp + 1).toNat) := by
    rw [State.peek_ram h, stackAddr_toNat, Nat.mod_eq_of_lt (by omega)]
    rfl
  refine Prod.ext ?_ ?_
  · exact hp
  · show (busRead _ _).2 = _
    rw [busRead_storage (.inl h), hp]
    rfl

/-- A 16-bit read is two reads, the first address first. -/
theorem read16_eq (a b : Word) (s : State) :
    read16 a b s = (wordOf ((busRead a s).2.peek b) (s.peek a), (busRead b (busRead a s).2).2) := rfl

/-- A 16-bit read of storage. -/
theorem read16_storage {a b : Word} {s : State} (ha : a.toNat < 0x2000 ∨ 0x6000 ≤ a.toNat)
    (hb : b.toNat < 0x2000 ∨ 0x6000 ≤ b.toNat) :
    read16 a b s =
      (wordOf (s.peek b) (s.peek a),
        { s with
          busLatch := s.peek b
          trace := s.event .read b (s.peek b) :: s.event .read a (s.peek a) :: s.trace }) := by
  have hb' : isStorage b = true := by simpa [isStorage] using hb
  have hp : (busRead a s).2.peek b = s.peek b := (OnlyReads.busRead a s).peek hb'
  rw [read16_eq, busRead_storage (s := (busRead a s).2) (a := b) (by omega), hp, busRead_storage (by omega)]
  rfl

theorem OnlyReads.read16 (a b : Word) (s : State) : OnlyReads s (Machine.read16 a b s).2 :=
  (OnlyReads.busRead a s).trans (OnlyReads.busRead b _)

@[simp] theorem read16_regs (a b : Word) (s : State) : (read16 a b s).2.regs = s.regs := by simp [read16_eq]

@[simp] theorem read16_ctl (a b : Word) (s : State) : (read16 a b s).2.ctl = s.ctl := by simp [read16_eq]

/-! ### Addressing modes -/

/-- A zero-page pointer is two bytes of page zero. -/
theorem pointer_eq (p : Byte) (s : State) :
    pointer p s =
      (wordOf (Store.read s.ram (p + 1).toNat) (Store.read s.ram p.toNat),
        { s with
          busLatch := Store.read s.ram (p + 1).toNat
          trace :=
            s.event .read (zeroPage (p + 1)) (Store.read s.ram (p + 1).toNat) ::
              s.event .read (zeroPage p) (Store.read s.ram p.toNat) :: s.trace }) := by
  have h1 := p.isLt
  have h2 := (p + 1).isLt
  have e1 : s.peek (zeroPage p) = Store.read s.ram p.toNat := by
    rw [State.peek_ram (by rw [zeroPage_toNat]; omega), zeroPage_toNat, Nat.mod_eq_of_lt (by omega)]
  have e2 : s.peek (zeroPage (p + 1)) = Store.read s.ram (p + 1).toNat := by
    rw [State.peek_ram (by rw [zeroPage_toNat]; omega), zeroPage_toNat, Nat.mod_eq_of_lt (by omega)]
  rw [pointer, read16_storage (by rw [zeroPage_toNat]; omega) (by rw [zeroPage_toNat]; omega), e1, e2]

/-- Forming an address only reads, and keeps registers, control state, memories and devices. -/
theorem MemMode.ea_frame (m : MemMode) (s : State) :
    (m.ea s).2.regs = s.regs ∧ (m.ea s).2.ctl = s.ctl ∧ (m.ea s).2.ram = s.ram ∧ (m.ea s).2.cart = s.cart ∧
      (m.ea s).2.ppu = s.ppu ∧ (m.ea s).2.apu = s.apu ∧ (m.ea s).2.pads = s.pads ∧ (m.ea s).2.inputs = s.inputs := by
  cases m <;> simp [MemMode.ea, pointer_eq]

theorem OnlyReads.ea (m : MemMode) (s : State) : OnlyReads s (m.ea s).2 := by
  obtain ⟨_, h1, h2, h3, h4, h5, h6, h7⟩ := MemMode.ea_frame m s
  exact OnlyReads.of_eq (by rw [h1]) h2 h3 h4 h5 h6 h7

/-- Forming an address touches no device: its pointers stand in page zero. -/
theorem SameDevices.ea (m : MemMode) (s : State) : SameDevices s (m.ea s).2 := by
  obtain ⟨_, _, _, _, hp, ha, hd, _⟩ := MemMode.ea_frame m s
  exact ⟨hp, ha, hd⟩

@[simp] theorem MemMode.ea_regs (m : MemMode) (s : State) : (m.ea s).2.regs = s.regs := (MemMode.ea_frame m s).1

@[simp] theorem MemMode.ea_ctl (m : MemMode) (s : State) : (m.ea s).2.ctl = s.ctl := (MemMode.ea_frame m s).2.1

/-- Reading an operand only reads; it keeps the registers and adds the page penalty. -/
theorem ReadOp.get_frame (o : ReadOp) (s : State) :
    (o.get s).2.regs = s.regs ∧ (o.get s).2.ctl = { s.ctl with stepCycles := s.ctl.stepCycles + o.penalty s } ∧
      OnlyReads s (o.get s).2 := by
  cases o with
  | imm n => exact ⟨rfl, rfl, OnlyReads.refl s⟩
  | mem m =>
    refine ⟨by simp [ReadOp.get], by simp [ReadOp.get, ReadOp.penalty], ?_⟩
    refine (OnlyReads.ea m s).trans (OnlyReads.trans ?_ (OnlyReads.busRead _ _))
    exact OnlyReads.of_eq rfl rfl rfl rfl rfl rfl rfl

/-- Reading an operand that is no device register leaves the devices as they were. -/
theorem ReadOp.get_devices (o : ReadOp) (s : State) (h : o.readsDevice s = false) : SameDevices s (o.get s).2 := by
  cases o with
  | imm n => exact SameDevices.refl s
  | mem m =>
    have q := SameDevices.busRead ((m.ea s).2.addCycles (boolNat (m.ea s).1.crossed)) h
    exact (SameDevices.ea m s).trans ⟨q.ppu, q.apu, q.pads⟩

end Sys2Proof.Machine
end

