-- ==== Sys2Proof/Laws/Memory.lean ====
section
/-! SUPPORT. Every operation over a memory of the machine keeps its canonical form and its size; the mapper's translations stay
inside the storage they index; the reset state has the form. -/

namespace Sys2Proof.Machine

/-! ### The cartridge -/

theorem Cart.Ok.prgBanks_pos {c : Cart} (h : c.Ok) : 0 < c.prgBanks := by have := h.prgSel; omega

/-- Mapper 3 has a CHR bank to select (R233). -/
theorem Cart.Ok.chrBanks_pos {c : Cart} (h : c.Ok) (hm : c.mapper = .m3) : 0 < c.chrBanks := by
  have := h.admits
  simp [Mapper.admits, hm] at this
  omega

/-- `map_cpu` stays inside `prg_rom` (R225). -/
theorem Cart.Ok.mapCpu_lt {c : Cart} (h : c.Ok) {a : Nat} (ha : 0x8000 ≤ a) (ha' : a < 0x10000) :
    c.mapCpu a < c.prgSize := by
  have hp := h.prgBanks_pos
  have hs := h.prgSel
  have : 0 < c.prgSize := Nat.mul_pos hp (by decide)
  have hb : ∀ b k, b < c.prgBanks → k < prgBankSize → b * prgBankSize + k < c.prgSize := fun b k hb hk => by
    have := Nat.mul_le_mul_right prgBankSize (show b + 1 ≤ c.prgBanks from hb)
    rw [Nat.add_mul] at this
    simp only [Cart.prgSize]
    omega
  unfold Cart.mapCpu
  split
  · exact Nat.mod_lt _ this
  · exact Nat.mod_lt _ this
  · split
    · exact hb _ _ hs (by simp only [prgBankSize]; omega)
    · exact hb _ _ (by omega) (by simp only [prgBankSize]; omega)

/-- `map_ppu` stays inside `chr` (R225). -/
theorem Cart.Ok.mapPpu_lt {c : Cart} (h : c.Ok) {a : Nat} (ha : a < 0x2000) : c.mapPpu a < c.chrSize := by
  have hge : chrBankSize ≤ c.chrSize := by
    unfold Cart.chrSize Cart.chrIsRam
    split
    · exact Nat.le_refl _
    · rename_i hne
      have : 0 < c.chrBanks := Nat.pos_of_ne_zero (by simpa using hne)
      exact Nat.le_mul_of_pos_left _ this
  unfold Cart.mapPpu
  split
  · simp only [chrBankSize] at hge; omega
  · simp only [chrBankSize] at hge; omega
  · have hpos := h.chrBanks_pos ‹_›
    have hlt : c.chrSel < c.chrBanks := by rcases h.chrSel with e | e <;> omega
    have := Nat.mul_le_mul_right chrBankSize (show c.chrSel + 1 ≤ c.chrBanks from hlt)
    rw [Nat.add_mul] at this
    have hsz : c.chrSize = c.chrBanks * chrBankSize := by
      simp [Cart.chrSize, Cart.chrIsRam, show c.chrBanks ≠ 0 by omega]
    rw [hsz]
    simp only [chrBankSize] at this ⊢
    omega

/-- A bank select keeps a cartridge in order (R228, R232, R233). -/
theorem Cart.Ok.onCpuWrite {c : Cart} (h : c.Ok) (v : Byte) : (c.onCpuWrite v).Ok := by
  unfold Cart.onCpuWrite
  split
  · exact h
  · exact ⟨h.admits, Nat.mod_lt _ h.prgBanks_pos, h.chrSel, h.chrSelOff, fun hm => absurd ‹_› hm, h.prgRom, h.chr, h.prgRam⟩
  · exact ⟨h.admits, h.prgSel, .inr (Nat.mod_lt _ (h.chrBanks_pos ‹_›)), fun hm => absurd ‹_› hm, h.prgSelOff, h.prgRom, h.chr,
      h.prgRam⟩

/-- `CartWrite` keeps a cartridge in order (R227). -/
theorem Cart.Ok.write {c : Cart} (h : c.Ok) (a : Nat) (v : Byte) : (c.write a v).Ok := by
  unfold Cart.write
  split
  · exact h
  · split
    · exact ⟨h.admits, h.prgSel, h.chrSel, h.chrSelOff, h.prgSelOff, h.prgRom, h.chr, Store.wf_write h.prgRam.1 _ _,
        Store.within_write h.prgRam.2 (by omega) _⟩
    · exact h.onCpuWrite v

/-- A write to CHR keeps a cartridge in order (R241). -/
theorem Cart.Ok.writeChr {c : Cart} (h : c.Ok) {a : Nat} (ha : a < 0x2000) (v : Byte) : (c.writeChr a v).Ok := by
  unfold Cart.writeChr
  split
  · exact ⟨h.admits, h.prgSel, h.chrSel, h.chrSelOff, h.prgSelOff, h.prgRom,
      ⟨Store.wf_write h.chr.1 _ _, Store.within_write h.chr.2 (h.mapPpu_lt ha) _⟩, h.prgRam⟩
  · exact h

/-- Reset keeps a cartridge in order (R234). -/
theorem Cart.Ok.reset {c : Cart} (h : c.Ok) : c.reset.Ok :=
  ⟨h.admits, h.prgBanks_pos, .inl rfl, fun _ => rfl, fun _ => rfl, h.prgRom, h.chr, h.prgRam⟩

/-! ### The PPU's memories -/

/-- A nametable address reaches one of the 2048 bytes of VRAM (R223, R243). -/
theorem vramIndex_lt (m : Mirroring) (a : Nat) : vramIndex m a < 0x800 := by
  unfold vramIndex
  cases m <;> simp only <;> omega

/-- A palette address reaches one of the 32 entries (R242). -/
theorem paletteIndex_lt (a : Nat) : paletteIndex a < 32 := by
  unfold paletteIndex
  simp only
  split <;> omega

/-- The bits of an OAM attribute byte that are not implemented read 0 (R244). -/
theorem oamMask_and (a d : Byte) (h : a.toNat % 4 = 2) : oamMask a d &&& 0x1C = 0 := by
  have : a &&& 3 = 2 := by
    apply BitVec.eq_of_toNat_eq
    rw [BitVec.toNat_and]
    show a.toNat &&& (2 ^ 2 - 1) = 2
    rw [Nat.and_two_pow_sub_one_eq_mod]
    exact h
  simp only [oamMask, this, if_true, BitVec.and_assoc]
  show d &&& 0 = 0
  exact BitVec.and_zero

/-- A write to OAMDATA keeps the PPU's memories in order (R814). -/
theorem Ppu.MemOk.writeOam {p : Ppu} (h : p.MemOk) (d : Byte) : (p.writeOam d).MemOk := by
  refine ⟨h.vram, h.palette, ⟨Store.wf_write h.oam.1 _ _, Store.within_write h.oam.2 p.oamAddr.isLt _⟩, h.fb, fun k hk => ?_⟩
  show Store.read (Store.write p.oam p.oamAddr.toNat _) (4 * k + 2) &&& 0x1C = 0
  rw [Store.read_write h.oam.1]
  split
  · exact oamMask_and _ d (by omega)
  · exact h.attr k hk

/-- `PpuWrite` keeps the cartridge and the PPU's memories in order (R241). -/
theorem ppuWrite_ok {c : Cart} {p : Ppu} (hc : c.Ok) (hp : p.MemOk) (a : BitVec 14) (v : Byte) :
    (ppuWrite c p a v).1.Ok ∧ (ppuWrite c p a v).2.MemOk := by
  unfold ppuWrite
  simp only []
  split
  · exact ⟨hc.writeChr ‹_› v, hp⟩
  · split
    · exact ⟨hc, ⟨Store.wf_write hp.vram.1 _ _, Store.within_write hp.vram.2 (vramIndex_lt _ _) _⟩, hp.palette, hp.oam, hp.fb,
        hp.attr⟩
    · exact ⟨hc, hp.vram, ⟨Store.wf_write hp.palette.1 _ _, Store.within_write hp.palette.2 (paletteIndex_lt _) _⟩, hp.oam,
        hp.fb, hp.attr⟩

/-- Changes outside the PPU's memories keep them in order. -/
theorem Ppu.MemOk.congr {p q : Ppu} (h : p.MemOk) (hv : q.vram = p.vram) (hp : q.palette = p.palette) (ho : q.oam = p.oam)
    (hf : q.fb = p.fb) : q.MemOk :=
  ⟨hv ▸ h.vram, hp ▸ h.palette, ho ▸ h.oam, hf ▸ h.fb, fun k hk => by rw [ho]; exact h.attr k hk⟩

/-- A CPU write of a PPU register keeps the cartridge and the PPU's memories in order (R810 to R817). -/
theorem Ppu.writeReg_ok {c : Cart} {p : Ppu} (hc : c.Ok) (hp : p.MemOk) (r : Nat) (d : Byte) :
    (p.writeReg c r d).1.Ok ∧ (p.writeReg c r d).2.MemOk := by
  have h0 : Ppu.MemOk { p with ioLatch := d } := hp.congr rfl rfl rfl rfl
  unfold Ppu.writeReg
  simp only []
  split
  · exact ⟨hc, h0.congr rfl rfl rfl rfl⟩
  · exact ⟨hc, h0.congr rfl rfl rfl rfl⟩
  · exact ⟨hc, h0.congr rfl rfl rfl rfl⟩
  · exact ⟨hc, h0.writeOam d⟩
  · refine ⟨hc, ?_⟩
    unfold Ppu.writeScroll
    split <;> exact h0.congr rfl rfl rfl rfl
  · refine ⟨hc, ?_⟩
    unfold Ppu.writeAddr
    split <;> exact h0.congr rfl rfl rfl rfl
  · obtain ⟨h1, h2⟩ := ppuWrite_ok hc h0 (Ppu.dataAddr { p with ioLatch := d }) d
    exact ⟨h1, h2.congr rfl rfl rfl rfl⟩
  · exact ⟨hc, h0⟩

/-- A CPU read of a PPU register keeps the PPU's memories in order. -/
theorem Ppu.MemOk.readReg {p : Ppu} (h : p.MemOk) (c : Cart) (r : Nat) : (p.readReg c r).2.MemOk := by
  rw [Ppu.readReg_frame]
  exact h.congr rfl rfl rfl rfl

/-! ### The whole machine -/

theorem Ppu.memOk_resetWith {p : Ppu} (h : p.MemOk) : (Ppu.resetWith p.vram p.palette p.oam).MemOk :=
  ⟨h.vram, h.palette, h.oam, ⟨Store.wf_nil, Store.within_nil _⟩, h.attr⟩

/-- A write of a region keeps every memory in order. -/
theorem State.MemOk.writeRegion {s : State} (h : s.MemOk) (a : Word) (v : Byte) : (Machine.writeRegion a v s).MemOk := by
  unfold Machine.writeRegion
  split
  · exact ⟨⟨Store.wf_write h.ram.1 _ _, Store.within_write h.ram.2 (Nat.mod_lt _ (by decide)) _⟩, h.cart, h.ppu⟩
  · obtain ⟨h1, h2⟩ := Ppu.writeReg_ok h.cart h.ppu _ v
    exact ⟨h.ram, h1, h2⟩
  · exact ⟨h.ram, h.cart, h.ppu⟩
  · exact h
  · exact ⟨h.ram, h.cart, h.ppu⟩
  · exact ⟨h.ram, h.cart, h.ppu⟩
  · exact ⟨h.ram, h.cart, h.ppu⟩
  · exact h
  · exact ⟨h.ram, h.cart.write _ v, h.ppu⟩

/-- A read of a region keeps every memory in order. -/
theorem State.MemOk.readRegion {s : State} (h : s.MemOk) (a : Word) : (Machine.readRegion a s).2.MemOk := by
  obtain ⟨_, _, _, _, ho⟩ := readRegion_frame a s
  exact ⟨ho.ram ▸ h.ram, ho.cart ▸ h.cart, by rw [ho.ppu]; exact h.ppu.congr rfl rfl rfl rfl⟩

/-- The listed memories of the reset state are empty, so canonical. -/
theorem State.reset_memories :
    Memory.wf State.reset.ram = true ∧ Memory.wf State.reset.cart.prgRom = true ∧ Memory.wf State.reset.cart.chr = true ∧
      Memory.wf State.reset.cart.prgRam = true ∧ Memory.wf State.reset.ppu.vram = true ∧
      Memory.wf State.reset.ppu.oam = true := by decide

end Sys2Proof.Machine
end

