-- ==== Sys2Proof/Laws/PerInstr.lean ====
section
/-! SUPPORT. Statements about every instruction as syntax, one lemma per constructor. RoundTrip: decoding the bytes of an
instruction gives the instruction back, with every operand, and leaves the bytes after it. -/

namespace Sys2Proof.Laws.RoundTrip

/-- Decoding the bytes of `i`, whatever follows them, gives `i` and what follows. -/
def Statement (i : Instr) : Prop := ∀ rest : List Byte, decode (encode i ++ rest) = .ok (i, rest)

theorem ldaIzx (n : Byte) : Statement (.ldaIzx n) := fun _ => rfl

theorem ldaZp (n : Byte) : Statement (.ldaZp n) := fun _ => rfl

theorem ldaImm (n : Byte) : Statement (.ldaImm n) := fun _ => rfl

theorem ldaAbs (w : Word) : Statement (.ldaAbs w) := fun rest =>
  congrArg (fun u => Except.ok (Instr.ldaAbs u, rest)) (wordOf_hi_lo w)

theorem ldaIzy (n : Byte) : Statement (.ldaIzy n) := fun _ => rfl

theorem ldaZpx (n : Byte) : Statement (.ldaZpx n) := fun _ => rfl

theorem ldaAby (w : Word) : Statement (.ldaAby w) := fun rest =>
  congrArg (fun u => Except.ok (Instr.ldaAby u, rest)) (wordOf_hi_lo w)

theorem ldaAbx (w : Word) : Statement (.ldaAbx w) := fun rest =>
  congrArg (fun u => Except.ok (Instr.ldaAbx u, rest)) (wordOf_hi_lo w)

theorem ldxImm (n : Byte) : Statement (.ldxImm n) := fun _ => rfl

theorem ldxZp (n : Byte) : Statement (.ldxZp n) := fun _ => rfl

theorem ldxAbs (w : Word) : Statement (.ldxAbs w) := fun rest =>
  congrArg (fun u => Except.ok (Instr.ldxAbs u, rest)) (wordOf_hi_lo w)

theorem ldxZpy (n : Byte) : Statement (.ldxZpy n) := fun _ => rfl

theorem ldxAby (w : Word) : Statement (.ldxAby w) := fun rest =>
  congrArg (fun u => Except.ok (Instr.ldxAby u, rest)) (wordOf_hi_lo w)

theorem ldyImm (n : Byte) : Statement (.ldyImm n) := fun _ => rfl

theorem ldyZp (n : Byte) : Statement (.ldyZp n) := fun _ => rfl

theorem ldyAbs (w : Word) : Statement (.ldyAbs w) := fun rest =>
  congrArg (fun u => Except.ok (Instr.ldyAbs u, rest)) (wordOf_hi_lo w)

theorem ldyZpx (n : Byte) : Statement (.ldyZpx n) := fun _ => rfl

theorem ldyAbx (w : Word) : Statement (.ldyAbx w) := fun rest =>
  congrArg (fun u => Except.ok (Instr.ldyAbx u, rest)) (wordOf_hi_lo w)

theorem staIzx (n : Byte) : Statement (.staIzx n) := fun _ => rfl

theorem staZp (n : Byte) : Statement (.staZp n) := fun _ => rfl

theorem staAbs (w : Word) : Statement (.staAbs w) := fun rest =>
  congrArg (fun u => Except.ok (Instr.staAbs u, rest)) (wordOf_hi_lo w)

theorem staIzy (n : Byte) : Statement (.staIzy n) := fun _ => rfl

theorem staZpx (n : Byte) : Statement (.staZpx n) := fun _ => rfl

theorem staAby (w : Word) : Statement (.staAby w) := fun rest =>
  congrArg (fun u => Except.ok (Instr.staAby u, rest)) (wordOf_hi_lo w)

theorem staAbx (w : Word) : Statement (.staAbx w) := fun rest =>
  congrArg (fun u => Except.ok (Instr.staAbx u, rest)) (wordOf_hi_lo w)

theorem stxZp (n : Byte) : Statement (.stxZp n) := fun _ => rfl

theorem stxAbs (w : Word) : Statement (.stxAbs w) := fun rest =>
  congrArg (fun u => Except.ok (Instr.stxAbs u, rest)) (wordOf_hi_lo w)

theorem stxZpy (n : Byte) : Statement (.stxZpy n) := fun _ => rfl

theorem styZp (n : Byte) : Statement (.styZp n) := fun _ => rfl

theorem styAbs (w : Word) : Statement (.styAbs w) := fun rest =>
  congrArg (fun u => Except.ok (Instr.styAbs u, rest)) (wordOf_hi_lo w)

theorem styZpx (n : Byte) : Statement (.styZpx n) := fun _ => rfl

theorem tax : Statement .tax := fun _ => rfl

theorem tay : Statement .tay := fun _ => rfl

theorem txa : Statement .txa := fun _ => rfl

theorem tya : Statement .tya := fun _ => rfl

theorem tsx : Statement .tsx := fun _ => rfl

theorem txs : Statement .txs := fun _ => rfl

theorem pha : Statement .pha := fun _ => rfl

theorem php : Statement .php := fun _ => rfl

theorem pla : Statement .pla := fun _ => rfl

theorem plp : Statement .plp := fun _ => rfl

theorem adcIzx (n : Byte) : Statement (.adcIzx n) := fun _ => rfl

theorem adcZp (n : Byte) : Statement (.adcZp n) := fun _ => rfl

theorem adcImm (n : Byte) : Statement (.adcImm n) := fun _ => rfl

theorem adcAbs (w : Word) : Statement (.adcAbs w) := fun rest =>
  congrArg (fun u => Except.ok (Instr.adcAbs u, rest)) (wordOf_hi_lo w)

theorem adcIzy (n : Byte) : Statement (.adcIzy n) := fun _ => rfl

theorem adcZpx (n : Byte) : Statement (.adcZpx n) := fun _ => rfl

theorem adcAby (w : Word) : Statement (.adcAby w) := fun rest =>
  congrArg (fun u => Except.ok (Instr.adcAby u, rest)) (wordOf_hi_lo w)

theorem adcAbx (w : Word) : Statement (.adcAbx w) := fun rest =>
  congrArg (fun u => Except.ok (Instr.adcAbx u, rest)) (wordOf_hi_lo w)

theorem sbcIzx (n : Byte) : Statement (.sbcIzx n) := fun _ => rfl

theorem sbcZp (n : Byte) : Statement (.sbcZp n) := fun _ => rfl

theorem sbcImm (n : Byte) : Statement (.sbcImm n) := fun _ => rfl

theorem sbcAbs (w : Word) : Statement (.sbcAbs w) := fun rest =>
  congrArg (fun u => Except.ok (Instr.sbcAbs u, rest)) (wordOf_hi_lo w)

theorem sbcIzy (n : Byte) : Statement (.sbcIzy n) := fun _ => rfl

theorem sbcZpx (n : Byte) : Statement (.sbcZpx n) := fun _ => rfl

theorem sbcAby (w : Word) : Statement (.sbcAby w) := fun rest =>
  congrArg (fun u => Except.ok (Instr.sbcAby u, rest)) (wordOf_hi_lo w)

theorem sbcAbx (w : Word) : Statement (.sbcAbx w) := fun rest =>
  congrArg (fun u => Except.ok (Instr.sbcAbx u, rest)) (wordOf_hi_lo w)

theorem cmpIzx (n : Byte) : Statement (.cmpIzx n) := fun _ => rfl

theorem cmpZp (n : Byte) : Statement (.cmpZp n) := fun _ => rfl

theorem cmpImm (n : Byte) : Statement (.cmpImm n) := fun _ => rfl

theorem cmpAbs (w : Word) : Statement (.cmpAbs w) := fun rest =>
  congrArg (fun u => Except.ok (Instr.cmpAbs u, rest)) (wordOf_hi_lo w)

theorem cmpIzy (n : Byte) : Statement (.cmpIzy n) := fun _ => rfl

theorem cmpZpx (n : Byte) : Statement (.cmpZpx n) := fun _ => rfl

theorem cmpAby (w : Word) : Statement (.cmpAby w) := fun rest =>
  congrArg (fun u => Except.ok (Instr.cmpAby u, rest)) (wordOf_hi_lo w)

theorem cmpAbx (w : Word) : Statement (.cmpAbx w) := fun rest =>
  congrArg (fun u => Except.ok (Instr.cmpAbx u, rest)) (wordOf_hi_lo w)

theorem cpxImm (n : Byte) : Statement (.cpxImm n) := fun _ => rfl

theorem cpxZp (n : Byte) : Statement (.cpxZp n) := fun _ => rfl

theorem cpxAbs (w : Word) : Statement (.cpxAbs w) := fun rest =>
  congrArg (fun u => Except.ok (Instr.cpxAbs u, rest)) (wordOf_hi_lo w)

theorem cpyImm (n : Byte) : Statement (.cpyImm n) := fun _ => rfl

theorem cpyZp (n : Byte) : Statement (.cpyZp n) := fun _ => rfl

theorem cpyAbs (w : Word) : Statement (.cpyAbs w) := fun rest =>
  congrArg (fun u => Except.ok (Instr.cpyAbs u, rest)) (wordOf_hi_lo w)

theorem incZp (n : Byte) : Statement (.incZp n) := fun _ => rfl

theorem incAbs (w : Word) : Statement (.incAbs w) := fun rest =>
  congrArg (fun u => Except.ok (Instr.incAbs u, rest)) (wordOf_hi_lo w)

theorem incZpx (n : Byte) : Statement (.incZpx n) := fun _ => rfl

theorem incAbx (w : Word) : Statement (.incAbx w) := fun rest =>
  congrArg (fun u => Except.ok (Instr.incAbx u, rest)) (wordOf_hi_lo w)

theorem decZp (n : Byte) : Statement (.decZp n) := fun _ => rfl

theorem decAbs (w : Word) : Statement (.decAbs w) := fun rest =>
  congrArg (fun u => Except.ok (Instr.decAbs u, rest)) (wordOf_hi_lo w)

theorem decZpx (n : Byte) : Statement (.decZpx n) := fun _ => rfl

theorem decAbx (w : Word) : Statement (.decAbx w) := fun rest =>
  congrArg (fun u => Except.ok (Instr.decAbx u, rest)) (wordOf_hi_lo w)

theorem inx : Statement .inx := fun _ => rfl

theorem iny : Statement .iny := fun _ => rfl

theorem dex : Statement .dex := fun _ => rfl

theorem dey : Statement .dey := fun _ => rfl

theorem andIzx (n : Byte) : Statement (.andIzx n) := fun _ => rfl

theorem andZp (n : Byte) : Statement (.andZp n) := fun _ => rfl

theorem andImm (n : Byte) : Statement (.andImm n) := fun _ => rfl

theorem andAbs (w : Word) : Statement (.andAbs w) := fun rest =>
  congrArg (fun u => Except.ok (Instr.andAbs u, rest)) (wordOf_hi_lo w)

theorem andIzy (n : Byte) : Statement (.andIzy n) := fun _ => rfl

theorem andZpx (n : Byte) : Statement (.andZpx n) := fun _ => rfl

theorem andAby (w : Word) : Statement (.andAby w) := fun rest =>
  congrArg (fun u => Except.ok (Instr.andAby u, rest)) (wordOf_hi_lo w)

theorem andAbx (w : Word) : Statement (.andAbx w) := fun rest =>
  congrArg (fun u => Except.ok (Instr.andAbx u, rest)) (wordOf_hi_lo w)

theorem oraIzx (n : Byte) : Statement (.oraIzx n) := fun _ => rfl

theorem oraZp (n : Byte) : Statement (.oraZp n) := fun _ => rfl

theorem oraImm (n : Byte) : Statement (.oraImm n) := fun _ => rfl

theorem oraAbs (w : Word) : Statement (.oraAbs w) := fun rest =>
  congrArg (fun u => Except.ok (Instr.oraAbs u, rest)) (wordOf_hi_lo w)

theorem oraIzy (n : Byte) : Statement (.oraIzy n) := fun _ => rfl

theorem oraZpx (n : Byte) : Statement (.oraZpx n) := fun _ => rfl

theorem oraAby (w : Word) : Statement (.oraAby w) := fun rest =>
  congrArg (fun u => Except.ok (Instr.oraAby u, rest)) (wordOf_hi_lo w)

theorem oraAbx (w : Word) : Statement (.oraAbx w) := fun rest =>
  congrArg (fun u => Except.ok (Instr.oraAbx u, rest)) (wordOf_hi_lo w)

theorem eorIzx (n : Byte) : Statement (.eorIzx n) := fun _ => rfl

theorem eorZp (n : Byte) : Statement (.eorZp n) := fun _ => rfl

theorem eorImm (n : Byte) : Statement (.eorImm n) := fun _ => rfl

theorem eorAbs (w : Word) : Statement (.eorAbs w) := fun rest =>
  congrArg (fun u => Except.ok (Instr.eorAbs u, rest)) (wordOf_hi_lo w)

theorem eorIzy (n : Byte) : Statement (.eorIzy n) := fun _ => rfl

theorem eorZpx (n : Byte) : Statement (.eorZpx n) := fun _ => rfl

theorem eorAby (w : Word) : Statement (.eorAby w) := fun rest =>
  congrArg (fun u => Except.ok (Instr.eorAby u, rest)) (wordOf_hi_lo w)

theorem eorAbx (w : Word) : Statement (.eorAbx w) := fun rest =>
  congrArg (fun u => Except.ok (Instr.eorAbx u, rest)) (wordOf_hi_lo w)

theorem bitZp (n : Byte) : Statement (.bitZp n) := fun _ => rfl

theorem bitAbs (w : Word) : Statement (.bitAbs w) := fun rest =>
  congrArg (fun u => Except.ok (Instr.bitAbs u, rest)) (wordOf_hi_lo w)

theorem aslZp (n : Byte) : Statement (.aslZp n) := fun _ => rfl

theorem aslAcc : Statement .aslAcc := fun _ => rfl

theorem aslAbs (w : Word) : Statement (.aslAbs w) := fun rest =>
  congrArg (fun u => Except.ok (Instr.aslAbs u, rest)) (wordOf_hi_lo w)

theorem aslZpx (n : Byte) : Statement (.aslZpx n) := fun _ => rfl

theorem aslAbx (w : Word) : Statement (.aslAbx w) := fun rest =>
  congrArg (fun u => Except.ok (Instr.aslAbx u, rest)) (wordOf_hi_lo w)

theorem lsrZp (n : Byte) : Statement (.lsrZp n) := fun _ => rfl

theorem lsrAcc : Statement .lsrAcc := fun _ => rfl

theorem lsrAbs (w : Word) : Statement (.lsrAbs w) := fun rest =>
  congrArg (fun u => Except.ok (Instr.lsrAbs u, rest)) (wordOf_hi_lo w)

theorem lsrZpx (n : Byte) : Statement (.lsrZpx n) := fun _ => rfl

theorem lsrAbx (w : Word) : Statement (.lsrAbx w) := fun rest =>
  congrArg (fun u => Except.ok (Instr.lsrAbx u, rest)) (wordOf_hi_lo w)

theorem rolZp (n : Byte) : Statement (.rolZp n) := fun _ => rfl

theorem rolAcc : Statement .rolAcc := fun _ => rfl

theorem rolAbs (w : Word) : Statement (.rolAbs w) := fun rest =>
  congrArg (fun u => Except.ok (Instr.rolAbs u, rest)) (wordOf_hi_lo w)

theorem rolZpx (n : Byte) : Statement (.rolZpx n) := fun _ => rfl

theorem rolAbx (w : Word) : Statement (.rolAbx w) := fun rest =>
  congrArg (fun u => Except.ok (Instr.rolAbx u, rest)) (wordOf_hi_lo w)

theorem rorZp (n : Byte) : Statement (.rorZp n) := fun _ => rfl

theorem rorAcc : Statement .rorAcc := fun _ => rfl

theorem rorAbs (w : Word) : Statement (.rorAbs w) := fun rest =>
  congrArg (fun u => Except.ok (Instr.rorAbs u, rest)) (wordOf_hi_lo w)

theorem rorZpx (n : Byte) : Statement (.rorZpx n) := fun _ => rfl

theorem rorAbx (w : Word) : Statement (.rorAbx w) := fun rest =>
  congrArg (fun u => Except.ok (Instr.rorAbx u, rest)) (wordOf_hi_lo w)

theorem bcc (n : Byte) : Statement (.bcc n) := fun _ => rfl

theorem bcs (n : Byte) : Statement (.bcs n) := fun _ => rfl

theorem beq (n : Byte) : Statement (.beq n) := fun _ => rfl

theorem bne (n : Byte) : Statement (.bne n) := fun _ => rfl

theorem bmi (n : Byte) : Statement (.bmi n) := fun _ => rfl

theorem bpl (n : Byte) : Statement (.bpl n) := fun _ => rfl

theorem bvc (n : Byte) : Statement (.bvc n) := fun _ => rfl

theorem bvs (n : Byte) : Statement (.bvs n) := fun _ => rfl

theorem jmpAbs (w : Word) : Statement (.jmpAbs w) := fun rest =>
  congrArg (fun u => Except.ok (Instr.jmpAbs u, rest)) (wordOf_hi_lo w)

theorem jmpInd (w : Word) : Statement (.jmpInd w) := fun rest =>
  congrArg (fun u => Except.ok (Instr.jmpInd u, rest)) (wordOf_hi_lo w)

theorem jsr (w : Word) : Statement (.jsr w) := fun rest =>
  congrArg (fun u => Except.ok (Instr.jsr u, rest)) (wordOf_hi_lo w)

theorem rts : Statement .rts := fun _ => rfl

theorem brk : Statement .brk := fun _ => rfl

theorem rti : Statement .rti := fun _ => rfl

theorem clc : Statement .clc := fun _ => rfl

theorem sec : Statement .sec := fun _ => rfl

theorem cli : Statement .cli := fun _ => rfl

theorem sei : Statement .sei := fun _ => rfl

theorem cld : Statement .cld := fun _ => rfl

theorem sed : Statement .sed := fun _ => rfl

theorem clv : Statement .clv := fun _ => rfl

theorem nop : Statement .nop := fun _ => rfl

end Sys2Proof.Laws.RoundTrip
end

