-- ==== Sys2Proof/Laws/Stable.lean ====
section
/-! SUPPORT. Said once: a property of states that the primitive updates of a CPU step keep is kept by every instruction, by
interrupt entry and by the fetch; with the primitive updates of the tick loop, by every step. -/

namespace Sys2Proof.Machine

/-- A property the primitive updates of a CPU step keep. -/
structure Stable (P : State → Prop) : Prop where
  regs : ∀ s r, P s → P { s with regs := r }
  count : ∀ s n b, P s → P { s with ctl := { s.ctl with stepCycles := n, stepBase := b } }
  read : ∀ s a, P s → P (readRegion a s).2
  write : ∀ s a v, P s → P (writeRegion a v s)
  conclude : ∀ s k c a v, P s → P (s.conclude k c a v)

namespace Stable

variable {P : State → Prop} (hP : Stable P) {s : State}

include hP

theorem addCycles (n : Nat) (h : P s) : P (s.addCycles n) := hP.count s _ s.ctl.stepBase h

theorem begin (b : Nat) (h : P s) : P (s.begin b) := hP.count s _ b h

theorem busReadAt (c : Nat) (a : Word) (h : P s) : P (Machine.busReadAt c a s).2 := hP.conclude _ _ _ _ _ (hP.read s a h)

theorem busRead (a : Word) (h : P s) : P (Machine.busRead a s).2 := hP.busReadAt _ a h

theorem plainWrite (a : Word) (v : Byte) (h : P s) : P (Machine.plainWrite a v s) :=
  hP.conclude _ _ _ _ _ (hP.write s a v h)

theorem dmaBytes (v : Byte) (left i : Nat) (h : P s) : P (Machine.dmaBytes v left i s) := by
  induction left generalizing i s with
  | zero => exact h
  | succ k ih => exact ih (i + 1) (hP.plainWrite _ _ (hP.busRead _ h))

theorem oamDma (v : Byte) (h : P s) : P (Machine.oamDma v s) := hP.addCycles _ (hP.dmaBytes v 256 0 h)

theorem busWrite (a : Word) (v : Byte) (h : P s) : P (Machine.busWrite a v s) := by
  unfold Machine.busWrite
  split
  · exact hP.oamDma v (hP.plainWrite a v h)
  · exact hP.plainWrite a v h

theorem indirect (w : Word) (h : P s) : P (Machine.indirect w s).2 := hP.busRead _ (hP.busRead _ h)

theorem fetch (h : P s) : P (Machine.fetch s).2 := hP.regs _ _ (hP.busRead _ h)

theorem push (v : Byte) (h : P s) : P (Machine.push v s) := hP.regs _ _ (hP.busWrite _ _ h)

theorem pull (h : P s) : P (Machine.pull s).2 := hP.busRead _ (hP.regs _ _ h)

theorem read16 (a b : Word) (h : P s) : P (Machine.read16 a b s).2 := hP.busRead _ (hP.busRead _ h)

theorem pushWord (w : Word) (h : P s) : P (Machine.pushWord w s) := hP.push _ (hP.push _ h)

theorem pullWord (h : P s) : P (Machine.pullWord s).2 := hP.pull (hP.pull h)

theorem enterHandler (ret : Word) (b : Bool) (vector : Word) (h : P s) : P (Machine.enterHandler ret b vector s) :=
  hP.regs _ _ (hP.read16 _ _ (hP.regs _ _ (hP.push _ (hP.pushWord ret h))))

theorem interruptEntry (vector : Word) (h : P s) : P (Machine.interruptEntry vector s) :=
  hP.addCycles _ (hP.enterHandler _ _ _ h)

theorem returnFromHandler (h : P s) : P (Machine.returnFromHandler s) :=
  hP.regs _ _ (hP.pullWord (hP.regs _ _ (hP.pull h)))

theorem ea (m : MemMode) (h : P s) : P (m.ea s).2 := by
  cases m <;> first | exact h | exact hP.read16 _ _ h

theorem get (o : ReadOp) (h : P s) : P (o.get s).2 := by
  cases o with
  | imm n => exact h
  | mem m => exact hP.busRead _ (hP.addCycles _ (hP.ea m h))

theorem put (m : MemMode) (v : Byte) (h : P s) : P (m.put v s) := hP.busWrite _ _ (hP.ea m h)

theorem modify (o : ModOp) (f : Byte → Byte) (h : P s) : P (o.modify f s).2 := by
  cases o with
  | acc => exact hP.regs _ _ h
  | mem m => exact hP.busWrite _ _ (hP.busRead _ (hP.ea m h))

/-- A state whose registers alone changed after an operand read. -/
theorem getRegs (o : ReadOp) (r : Regs) (h : P s) : P { (o.get s).2 with regs := r } := hP.regs _ r (hP.get o h)

/-- A state whose registers alone changed after a read-modify-write. -/
theorem modifyRegs (o : ModOp) (f : Byte → Byte) (r : Regs) (h : P s) : P { (o.modify f s).2 with regs := r } :=
  hP.regs _ r (hP.modify o f h)

theorem opBranch (c : Bool) (n : Byte) (h : P s) : P (Machine.opBranch c n s) := by
  unfold Machine.opBranch
  split
  · exact hP.addCycles _ (hP.regs _ _ h)
  · exact h

theorem opLda (o : ReadOp) (h : P s) : P (Machine.opLda o s) := hP.getRegs o _ h

theorem opLdx (o : ReadOp) (h : P s) : P (Machine.opLdx o s) := hP.getRegs o _ h

theorem opLdy (o : ReadOp) (h : P s) : P (Machine.opLdy o s) := hP.getRegs o _ h

theorem opAdc (o : ReadOp) (h : P s) : P (Machine.opAdc o s) := hP.getRegs o _ h

theorem opSbc (o : ReadOp) (h : P s) : P (Machine.opSbc o s) := hP.getRegs o _ h

theorem opCmp (o : ReadOp) (h : P s) : P (Machine.opCmp o s) := hP.getRegs o _ h

theorem opCpx (o : ReadOp) (h : P s) : P (Machine.opCpx o s) := hP.getRegs o _ h

theorem opCpy (o : ReadOp) (h : P s) : P (Machine.opCpy o s) := hP.getRegs o _ h

theorem opAnd (o : ReadOp) (h : P s) : P (Machine.opAnd o s) := hP.getRegs o _ h

theorem opOra (o : ReadOp) (h : P s) : P (Machine.opOra o s) := hP.getRegs o _ h

theorem opEor (o : ReadOp) (h : P s) : P (Machine.opEor o s) := hP.getRegs o _ h

theorem opBit (o : ReadOp) (h : P s) : P (Machine.opBit o s) := hP.getRegs o _ h

theorem opSta (m : MemMode) (h : P s) : P (Machine.opSta m s) := hP.put m _ h

theorem opStx (m : MemMode) (h : P s) : P (Machine.opStx m s) := hP.put m _ h

theorem opSty (m : MemMode) (h : P s) : P (Machine.opSty m s) := hP.put m _ h

theorem opInc (m : MemMode) (h : P s) : P (Machine.opInc m s) := hP.modifyRegs (.mem m) _ _ h

theorem opDec (m : MemMode) (h : P s) : P (Machine.opDec m s) := hP.modifyRegs (.mem m) _ _ h

theorem opAsl (o : ModOp) (h : P s) : P (Machine.opAsl o s) := hP.modifyRegs o _ _ h

theorem opLsr (o : ModOp) (h : P s) : P (Machine.opLsr o s) := hP.modifyRegs o _ _ h

theorem opRol (o : ModOp) (h : P s) : P (Machine.opRol o s) := hP.modifyRegs o _ _ h

theorem opRor (o : ModOp) (h : P s) : P (Machine.opRor o s) := hP.modifyRegs o _ _ h

theorem setPc (w : Word) (h : P s) : P (s.setPc w) := hP.regs _ _ h

theorem setP (p : Flags) (h : P s) : P (s.setP p) := hP.regs _ _ h

theorem setA (v : Byte) (h : P s) : P (s.setA v) := hP.regs _ _ h

theorem setX (v : Byte) (h : P s) : P (s.setX v) := hP.regs _ _ h

theorem setY (v : Byte) (h : P s) : P (s.setY v) := hP.regs _ _ h

theorem setSp (v : Byte) (h : P s) : P (s.setSp v) := hP.regs _ _ h

/-- Every instruction keeps a stable property. -/
theorem exec {i : Instr} {t : State} (h : P s) (ht : Machine.exec i s = .next t) : P t := by
  cases i <;> obtain rfl := Host.Outcome.next.inj ht
  all_goals with_reducible first
    | exact hP.opLda _ (hP.begin _ h)
    | exact hP.opLdx _ (hP.begin _ h)
    | exact hP.opLdy _ (hP.begin _ h)
    | exact hP.opAdc _ (hP.begin _ h)
    | exact hP.opSbc _ (hP.begin _ h)
    | exact hP.opCmp _ (hP.begin _ h)
    | exact hP.opCpx _ (hP.begin _ h)
    | exact hP.opCpy _ (hP.begin _ h)
    | exact hP.opAnd _ (hP.begin _ h)
    | exact hP.opOra _ (hP.begin _ h)
    | exact hP.opEor _ (hP.begin _ h)
    | exact hP.opBit _ (hP.begin _ h)
    | exact hP.opSta _ (hP.begin _ h)
    | exact hP.opStx _ (hP.begin _ h)
    | exact hP.opSty _ (hP.begin _ h)
    | exact hP.opInc _ (hP.begin _ h)
    | exact hP.opDec _ (hP.begin _ h)
    | exact hP.opAsl _ (hP.begin _ h)
    | exact hP.opLsr _ (hP.begin _ h)
    | exact hP.opRol _ (hP.begin _ h)
    | exact hP.opRor _ (hP.begin _ h)
    | exact hP.opBranch _ _ (hP.begin _ h)
    | exact hP.setP _ (hP.begin _ h)
    | exact hP.setP _ (hP.setA _ (hP.begin _ h))
    | exact hP.setP _ (hP.setX _ (hP.begin _ h))
    | exact hP.setP _ (hP.setY _ (hP.begin _ h))
    | exact hP.setSp _ (hP.begin _ h)
    | exact hP.setPc _ (hP.begin _ h)
    | exact hP.begin _ h
    | exact hP.push _ (hP.begin _ h)
    | exact hP.setP _ (hP.setA _ (hP.pull (hP.begin _ h)))
    | exact hP.setP _ (hP.pull (hP.begin _ h))
    | exact hP.setPc _ (hP.indirect _ (hP.begin _ h))
    | exact hP.setPc _ (hP.pushWord _ (hP.begin _ h))
    | exact hP.setPc _ (hP.pullWord (hP.begin _ h))
    | exact hP.enterHandler _ _ _ (hP.begin _ h)
    | exact hP.returnFromHandler (hP.begin _ h)

/-- Fetching keeps a stable property, whatever it fetches. -/
theorem fetchInstr (h : P s) :
    (∀ i t, Machine.fetchInstr s = .ok i t → P t) ∧ (∀ f t, Machine.fetchInstr s = .illegal f t → P t) := by
  have h1 : P ((Machine.busRead s.regs.pc s).2.setPc ((Machine.busRead s.regs.pc s).2.regs.pc + 1)) :=
    hP.regs _ _ (hP.busRead _ h)
  unfold Machine.fetchInstr
  refine ⟨fun i t => ?_, fun f t => ?_⟩ <;> simp only [] <;> split <;> intro e <;> cases e
  · exact h1
  · exact hP.fetch h1
  · exact hP.fetch (hP.fetch h1)
  · exact hP.busRead _ h

end Stable

/-- Every instruction of the table answers a next state, from every state. -/
theorem exec_next (i : Instr) (s : State) : ∃ t, exec i s = .next t := by cases i <;> exact ⟨_, rfl⟩

/-- A stable property that the updates of the tick loop and the step's own bookkeeping keep too. -/
structure StepStable (P : State → Prop) : Prop extends Stable P where
  ctl : ∀ s c, P s → P { s with ctl := c }
  tick : ∀ s, P s → P (ppuTick s)
  units : ∀ s, P s → P { s with apu := s.apu.tickUnits }
  take : ∀ s b, s.apu.dmc.wantsByte = true → P s → P { s with apu := s.apu.takeByte b }
  finish : ∀ s, P s → P { s with apu := s.apu.tickEnd }

namespace StepStable

variable {P : State → Prop} (hP : StepStable P) {s : State}

include hP

theorem dmcReader (c : Nat) (h : P s) : P (Machine.dmcReader c s) := by
  unfold Machine.dmcReader
  split
  · rename_i hw
    refine hP.ctl _ _ (hP.take (Machine.busReadAt c s.apu.dmc.curAddr s).2 _ ?_ (hP.busReadAt c _ h))
    show (readRegion s.apu.dmc.curAddr s).2.apu.dmc.wantsByte = true
    rw [(readRegion_frame s.apu.dmc.curAddr s).2.2.2.2.apu]
    exact hw
  · exact h

theorem apuTick (c : Nat) (h : P s) : P (Machine.apuTick c s) := hP.finish _ (hP.dmcReader c (hP.units s h))

theorem deviceCycle (k : Nat) (h : P s) : P (Machine.deviceCycle k s) :=
  hP.apuTick _ (hP.tick _ (hP.tick _ (hP.tick _ h)))

theorem deviceCycles (left k : Nat) (h : P s) : P (Machine.deviceCycles left k s) := by
  induction left generalizing k s with
  | zero => exact h
  | succ n ih => exact ih (k + 1) (hP.deviceCycle k h)

theorem finishStep (r : Nat → StepResult) (h : P s) : P (Machine.finishStep r s) := hP.ctl _ _ (hP.deviceCycles _ _ h)

/-- Every step keeps it. -/
theorem step {t : State} (h : P s) (ht : Machine.step s = .next t) : P t := by
  have h0 : P s.startStep := hP.ctl _ _ h
  unfold Machine.step at ht
  split at ht
  · cases ht
  · cases ht
    exact hP.finishStep _ (hP.interruptEntry _ (hP.ctl _ _ (hP.ctl _ _ h0)))
  · cases ht
    exact hP.finishStep _ (hP.interruptEntry _ (hP.ctl _ _ h0))
  · unfold Machine.instructionStep at ht
    split at ht
    · cases ht
      exact hP.ctl _ _ ((hP.fetchInstr h0).2 _ _ ‹_›)
    · rename_i i u hu
      obtain ⟨x, hx⟩ := exec_next i u.payStall
      rw [hx] at ht
      cases ht
      exact hP.finishStep _ (hP.exec (hP.ctl _ _ ((hP.fetchInstr h0).1 _ _ hu)) hx)

end StepStable

end Sys2Proof.Machine
end

