-- ==== Sys2Proof/Laws/Ticks.lean ====
section
/-! SUPPORT. What the tick loop keeps: the raster and the control registers through the work of a dot, and everything but the
devices, the bus latch, the trace, the NMI latch and the owed stall through a device cycle. -/

namespace Sys2Proof.Machine

/-! ### One PPU tick -/

/-- The PPU's fields the work of a dot never changes: position, parity and the registers a program writes. -/
structure Ppu.SameRaster (p q : Ppu) : Prop where
  scanline : q.scanline = p.scanline
  dot : q.dot = p.dot
  oddFrame : q.oddFrame = p.oddFrame
  ctrl : q.ctrl = p.ctrl
  mask : q.mask = p.mask

theorem Ppu.SameRaster.refl (p : Ppu) : p.SameRaster p := ⟨rfl, rfl, rfl, rfl, rfl⟩

theorem Ppu.SameRaster.trans {p q r : Ppu} (h : p.SameRaster q) (k : q.SameRaster r) : p.SameRaster r :=
  ⟨k.scanline.trans h.scanline, k.dot.trans h.dot, k.oddFrame.trans h.oddFrame, k.ctrl.trans h.ctrl, k.mask.trans h.mask⟩

theorem Ppu.vblankWork_sameRaster (p : Ppu) : p.SameRaster p.vblankWork := by
  unfold Ppu.vblankWork
  repeat' split
  all_goals exact ⟨rfl, rfl, rfl, rfl, rfl⟩

theorem Ppu.scrollWork_sameRaster (p : Ppu) : p.SameRaster p.scrollWork := by
  unfold Ppu.scrollWork
  repeat' split
  all_goals exact ⟨rfl, rfl, rfl, rfl, rfl⟩

theorem Ppu.spriteWork_sameRaster (c : Cart) (p : Ppu) : p.SameRaster (p.spriteWork c) := by
  unfold Ppu.spriteWork
  repeat' split
  all_goals exact ⟨rfl, rfl, rfl, rfl, rfl⟩

theorem Ppu.pixelWork_sameRaster (c : Cart) (p : Ppu) : p.SameRaster (p.pixelWork c) := by
  unfold Ppu.pixelWork
  split
  all_goals exact ⟨rfl, rfl, rfl, rfl, rfl⟩

theorem Ppu.fetchStep_sameRaster (c : Cart) (p : Ppu) (k : Nat) : p.SameRaster (p.fetchStep c k) := by
  unfold Ppu.fetchStep
  split
  all_goals exact ⟨rfl, rfl, rfl, rfl, rfl⟩

theorem Ppu.bgWork_sameRaster (c : Cart) (p : Ppu) : p.SameRaster (p.bgWork c) := by
  unfold Ppu.bgWork
  split
  · have h := Ppu.fetchStep_sameRaster c { p with bg := p.bg.shift } ((p.dot - 1) % 8)
    exact ⟨h.scanline, h.dot, h.oddFrame, h.ctrl, h.mask⟩
  · exact Ppu.SameRaster.refl p

theorem Ppu.renderWork_sameRaster (c : Cart) (p : Ppu) : p.SameRaster (p.renderWork c) := by
  unfold Ppu.renderWork
  split
  · exact ((Ppu.bgWork_sameRaster c p).trans (Ppu.scrollWork_sameRaster _)).trans (Ppu.spriteWork_sameRaster c _)
  · exact Ppu.SameRaster.refl p

/-- A tick is the work of the dot, which leaves the raster alone, and then one advance. -/
theorem Ppu.tick_advance (c : Cart) (p : Ppu) : ∃ q, p.SameRaster q ∧ p.tick c = q.advance :=
  ⟨_, ((Ppu.vblankWork_sameRaster p).trans (Ppu.renderWork_sameRaster c _)).trans (Ppu.pixelWork_sameRaster c _), rfl⟩

@[simp] theorem Ppu.advance_ctrl (p : Ppu) : p.advance.ctrl = p.ctrl := by
  unfold Ppu.advance Ppu.nextLine
  repeat' split
  all_goals rfl

@[simp] theorem Ppu.advance_mask (p : Ppu) : p.advance.mask = p.mask := by
  unfold Ppu.advance Ppu.nextLine
  repeat' split
  all_goals rfl

@[simp] theorem Ppu.tick_ctrl (c : Cart) (p : Ppu) : (p.tick c).ctrl = p.ctrl := by
  obtain ⟨q, h, e⟩ := Ppu.tick_advance c p
  rw [e, Ppu.advance_ctrl, h.ctrl]

@[simp] theorem Ppu.tick_mask (c : Cart) (p : Ppu) : (p.tick c).mask = p.mask := by
  obtain ⟨q, h, e⟩ := Ppu.tick_advance c p
  rw [e, Ppu.advance_mask, h.mask]

/-! ### One device cycle -/

/-- `t` is `s` after device work: registers, RAM, cartridge, inputs and the control state as before, but for the NMI latch and the
owed stall. -/
structure DevicesOnly (s t : State) : Prop where
  regs : t.regs = s.regs
  ram : t.ram = s.ram
  cart : t.cart = s.cart
  inputs : t.inputs = s.inputs
  ctl : t.ctl = { s.ctl with nmiPending := t.ctl.nmiPending, stallCycles := t.ctl.stallCycles }
  ctrl : t.ppu.ctrl = s.ppu.ctrl
  mask : t.ppu.mask = s.ppu.mask

theorem DevicesOnly.refl (s : State) : DevicesOnly s s := ⟨rfl, rfl, rfl, rfl, rfl, rfl, rfl⟩

theorem DevicesOnly.trans {s t u : State} (h : DevicesOnly s t) (k : DevicesOnly t u) : DevicesOnly s u where
  regs := k.regs.trans h.regs
  ram := k.ram.trans h.ram
  cart := k.cart.trans h.cart
  inputs := k.inputs.trans h.inputs
  ctl := by rw [k.ctl, h.ctl]
  ctrl := k.ctrl.trans h.ctrl
  mask := k.mask.trans h.mask

theorem DevicesOnly.ppuTick (s : State) : DevicesOnly s (Machine.ppuTick s) :=
  ⟨rfl, rfl, rfl, rfl, rfl, Ppu.tick_ctrl s.cart s.ppu, Ppu.tick_mask s.cart s.ppu⟩

/-- The memory reader makes at most one CPU-bus read; the raster stays. -/
theorem dmcReader_frame (c : Nat) (s : State) :
    DevicesOnly s (dmcReader c s) ∧ s.ppu.SameRaster (dmcReader c s).ppu ∧
      (dmcReader c s).ctl.nmiPending = s.ctl.nmiPending := by
  unfold dmcReader
  split
  · obtain ⟨hr, hc, _, _, ho⟩ := readRegion_frame s.apu.dmc.curAddr s
    have hp := ho.ppu
    refine ⟨⟨hr, ho.ram, ho.cart, ho.inputs, ?_, ?_, ?_⟩, ⟨?_, ?_, ?_, ?_, ?_⟩, ?_⟩
    · simp only [busReadAt, State.conclude, hc]
    all_goals first
      | (show (readRegion s.apu.dmc.curAddr s).2.ctl.nmiPending = _; rw [hc])
      | (simp only [busReadAt, State.conclude]; rw [hp])
  · exact ⟨DevicesOnly.refl s, Ppu.SameRaster.refl _, rfl⟩

theorem apuTick_frame (c : Nat) (s : State) :
    DevicesOnly s (apuTick c s) ∧ s.ppu.SameRaster (apuTick c s).ppu ∧ (apuTick c s).ctl.nmiPending = s.ctl.nmiPending := by
  obtain ⟨h, hr, hn⟩ := dmcReader_frame c { s with apu := s.apu.tickUnits }
  exact ⟨⟨h.regs, h.ram, h.cart, h.inputs, h.ctl, h.ctrl, h.mask⟩,
    ⟨hr.scanline, hr.dot, hr.oddFrame, hr.ctrl, hr.mask⟩, hn⟩

theorem DevicesOnly.deviceCycle (k : Nat) (s : State) : DevicesOnly s (Machine.deviceCycle k s) :=
  (((DevicesOnly.ppuTick s).trans (DevicesOnly.ppuTick _)).trans (DevicesOnly.ppuTick _)).trans (apuTick_frame _ _).1

theorem DevicesOnly.deviceCycles (left k : Nat) (s : State) : DevicesOnly s (Machine.deviceCycles left k s) := by
  induction left generalizing k s with
  | zero => exact DevicesOnly.refl s
  | succ n ih => exact (DevicesOnly.deviceCycle k s).trans (ih (k + 1) _)

/-- Everything a step's tick loop and bookkeeping can do outside the devices. -/
theorem finishStep_frame (r : Nat → StepResult) (s : State) :
    (finishStep r s).regs = s.regs ∧ (finishStep r s).ram = s.ram ∧ (finishStep r s).cart = s.cart ∧
      (finishStep r s).inputs = s.inputs ∧
      (finishStep r s).ctl =
        { s.ctl with
          nmiPending := (finishStep r s).ctl.nmiPending
          stallCycles := (finishStep r s).ctl.stallCycles
          cyclesTotal := s.ctl.cyclesTotal + s.ctl.stepCycles
          lastResult := r s.ctl.stepCycles } ∧
      (finishStep r s).ppu.ctrl = s.ppu.ctrl ∧ (finishStep r s).ppu.mask = s.ppu.mask := by
  have h := DevicesOnly.deviceCycles s.ctl.stepCycles 0 s
  refine ⟨h.regs, h.ram, h.cart, h.inputs, ?_, h.ctrl, h.mask⟩
  simp only [finishStep]
  rw [h.ctl]

end Sys2Proof.Machine
end

