-- ==== Sys2Proof/Tests/Slice0.lean ====
section
/-! SUPPORT. The model's own tests: ill-formed operands refused, a word of every opcode table row, vectors of
95_test_vectors.md (each expected value is that file's, computed from the rules), and for every obligation with hypotheses
a witness that meets them, at the boundary values of each clause. -/

namespace Sys2Proof.Tests

open Sys2Proof Sys2Proof.Machine

/-! ### Helpers -/

/-- A CPU with the given registers; `p` holds N V D I Z C from bit 5 down. -/
def cpu (a x y s : Byte) (pc : Word) (p : Nat) : Regs :=
  { a := a, x := x, y := y, sp := s, pc := pc
    p :=
      { n := p.testBit 5, v := p.testBit 4, d := p.testBit 3, i := p.testBit 2, z := p.testBit 1, c := p.testBit 0 } }

/-- Bytes put into storage, each at its address. -/
def pokes (ps : List (Word × Byte)) (s : State) : State := ps.foldl (fun t p => t.poke p.1 p.2) s

/-- The reset machine with registers, memory bytes, and the code at PC. -/
def machine (r : Regs) (mem : List (Word × Byte)) (code : List Byte) : State :=
  let m := pokes mem { State.reset with regs := r, trace := [] }
  pokes (code.mapIdx fun k b => (r.pc + BitVec.ofNat 16 k, b)) m

/-- The CPU-bus writes of a machine since its trace was empty, oldest first. -/
def writesOf (s : State) : List (Word × Byte) :=
  (s.events.filter fun e => e.kind == .write).map fun e => (e.address, e.value)

/-- One step: the registers, the cycles it took, its writes; `none` if it does not answer a next state. -/
def ran (s : State) : Option (Regs × Nat × List (Word × Byte)) :=
  match step s with
  | .next t => some (t.regs, t.ctl.cyclesTotal - s.ctl.cyclesTotal, writesOf t)
  | .fault _ => none
  | .refused _ => none

/-- Whether every word decodes to its instruction, with nothing left. -/
def allDecode (ps : List (List Byte × Instr)) : Bool :=
  ps.all fun p => match decode p.1 with
    | .ok (i, rest) => i == p.2 && rest == []
    | .error _ => false

/-- CPU-bus writes, one after the other. -/
def wr (ps : List (Word × Byte)) (s : State) : State := ps.foldl (fun t p => busWrite p.1 p.2 t) s

/-- `k` reads of an address: the bytes, in order. -/
def rd (a : Word) (k : Nat) (s : State) : List Byte :=
  match k with
  | 0 => []
  | n + 1 => (busRead a s).1 :: rd a n (busRead a s).2

/-! ### Well-formedness and encodings -/

/-- R351: a branch at $8000 reaches $8002 - 128 to $8002 + 127 and no further. -/
theorem test_branch_too_far_refused :
    branchOffset 0x8000 0x8082 = none ∧ branchOffset 0x8000 0x7F81 = none ∧ branchInRange 0x8000 0x8082 = false ∧
    branchInRange 0x8000 0x7F81 = false := by decide

theorem test_branch_in_range_accepted :
    branchOffset 0x8000 0x8081 = some 0x7F ∧ branchOffset 0x8000 0x7F82 = some 0x80 ∧
    branchOffset 0x8000 0x8000 = some 0xFE := by decide

/-- R340: illegal opcodes are refused by name; R338: so is an instruction cut short. -/
theorem test_decode_refuses :
    decode [0x02, 0x00] = .error (.illegalOpcode 0x02) ∧ decode [0xEB] = .error (.illegalOpcode 0xEB) ∧
    (decode []).isOk = false ∧ (decode [0xA9]).isOk = false ∧ (decode [0xAD, 0x00]).isOk = false := ⟨rfl, rfl, rfl, rfl, rfl⟩

/-- The host's numbering: the first byte is bits 7..0. -/
theorem test_table_word :
    decodeTableWord 24 0x1234AD = some (.ldaAbs 0x1234) ∧ decodeTableWord 8 0xAD = some (.ldaAbs 0) ∧
    decodeTableWord 8 0xFFEA = some .nop ∧ decodeTableWord 8 0x02 = none := by decide

/-- The words of 30_encoding.md §7, control. -/
theorem test_decode_control :
    allDecode [
      ([0x00], .brk), ([0x10, 0xA7], .bpl 0xA7), ([0x20, 0x34, 0x12], .jsr 0x1234), ([0x30, 0xA7], .bmi 0xA7),
      ([0x40], .rti), ([0x4C, 0x34, 0x12], .jmpAbs 0x1234), ([0x50, 0xA7], .bvc 0xA7), ([0x60], .rts),
      ([0x6C, 0x34, 0x12], .jmpInd 0x1234), ([0x70, 0xA7], .bvs 0xA7), ([0x90, 0xA7], .bcc 0xA7),
      ([0xB0, 0xA7], .bcs 0xA7), ([0xD0, 0xA7], .bne 0xA7), ([0xF0, 0xA7], .beq 0xA7)] = true := by decide

/-- The words of 30_encoding.md §7, logic shift. -/
theorem test_decode_logic_shift_1 :
    allDecode [
      ([0x01, 0xA7], .oraIzx 0xA7), ([0x05, 0xA7], .oraZp 0xA7), ([0x06, 0xA7], .aslZp 0xA7),
      ([0x09, 0xA7], .oraImm 0xA7), ([0x0A], .aslAcc), ([0x0D, 0x34, 0x12], .oraAbs 0x1234),
      ([0x0E, 0x34, 0x12], .aslAbs 0x1234), ([0x11, 0xA7], .oraIzy 0xA7), ([0x15, 0xA7], .oraZpx 0xA7),
      ([0x16, 0xA7], .aslZpx 0xA7), ([0x19, 0x34, 0x12], .oraAby 0x1234), ([0x1D, 0x34, 0x12], .oraAbx 0x1234),
      ([0x1E, 0x34, 0x12], .aslAbx 0x1234), ([0x21, 0xA7], .andIzx 0xA7), ([0x24, 0xA7], .bitZp 0xA7),
      ([0x25, 0xA7], .andZp 0xA7), ([0x26, 0xA7], .rolZp 0xA7), ([0x29, 0xA7], .andImm 0xA7), ([0x2A], .rolAcc),
      ([0x2C, 0x34, 0x12], .bitAbs 0x1234), ([0x2D, 0x34, 0x12], .andAbs 0x1234),
      ([0x2E, 0x34, 0x12], .rolAbs 0x1234), ([0x31, 0xA7], .andIzy 0xA7), ([0x35, 0xA7], .andZpx 0xA7),
      ([0x36, 0xA7], .rolZpx 0xA7), ([0x39, 0x34, 0x12], .andAby 0x1234)] = true := by decide

/-- The words of 30_encoding.md §7, logic shift. -/
theorem test_decode_logic_shift_2 :
    allDecode [
      ([0x3D, 0x34, 0x12], .andAbx 0x1234), ([0x3E, 0x34, 0x12], .rolAbx 0x1234), ([0x41, 0xA7], .eorIzx 0xA7),
      ([0x45, 0xA7], .eorZp 0xA7), ([0x46, 0xA7], .lsrZp 0xA7), ([0x49, 0xA7], .eorImm 0xA7), ([0x4A], .lsrAcc),
      ([0x4D, 0x34, 0x12], .eorAbs 0x1234), ([0x4E, 0x34, 0x12], .lsrAbs 0x1234), ([0x51, 0xA7], .eorIzy 0xA7),
      ([0x55, 0xA7], .eorZpx 0xA7), ([0x56, 0xA7], .lsrZpx 0xA7), ([0x59, 0x34, 0x12], .eorAby 0x1234),
      ([0x5D, 0x34, 0x12], .eorAbx 0x1234), ([0x5E, 0x34, 0x12], .lsrAbx 0x1234), ([0x66, 0xA7], .rorZp 0xA7),
      ([0x6A], .rorAcc), ([0x6E, 0x34, 0x12], .rorAbs 0x1234), ([0x76, 0xA7], .rorZpx 0xA7),
      ([0x7E, 0x34, 0x12], .rorAbx 0x1234)] = true := by decide

/-- The words of 30_encoding.md §7, stack. -/
theorem test_decode_stack :
    allDecode [
      ([0x08], .php), ([0x28], .plp), ([0x48], .pha), ([0x68], .pla)] = true := by decide

/-- The words of 30_encoding.md §7, flags misc. -/
theorem test_decode_flags_misc :
    allDecode [
      ([0x18], .clc), ([0x38], .sec), ([0x58], .cli), ([0x78], .sei), ([0xB8], .clv), ([0xD8], .cld), ([0xEA], .nop),
      ([0xF8], .sed)] = true := by decide

/-- The words of 30_encoding.md §7, arithmetic. -/
theorem test_decode_arithmetic_1 :
    allDecode [
      ([0x61, 0xA7], .adcIzx 0xA7), ([0x65, 0xA7], .adcZp 0xA7), ([0x69, 0xA7], .adcImm 0xA7),
      ([0x6D, 0x34, 0x12], .adcAbs 0x1234), ([0x71, 0xA7], .adcIzy 0xA7), ([0x75, 0xA7], .adcZpx 0xA7),
      ([0x79, 0x34, 0x12], .adcAby 0x1234), ([0x7D, 0x34, 0x12], .adcAbx 0x1234), ([0x88], .dey),
      ([0xC0, 0xA7], .cpyImm 0xA7), ([0xC1, 0xA7], .cmpIzx 0xA7), ([0xC4, 0xA7], .cpyZp 0xA7),
      ([0xC5, 0xA7], .cmpZp 0xA7), ([0xC6, 0xA7], .decZp 0xA7), ([0xC8], .iny), ([0xC9, 0xA7], .cmpImm 0xA7),
      ([0xCA], .dex), ([0xCC, 0x34, 0x12], .cpyAbs 0x1234), ([0xCD, 0x34, 0x12], .cmpAbs 0x1234),
      ([0xCE, 0x34, 0x12], .decAbs 0x1234), ([0xD1, 0xA7], .cmpIzy 0xA7), ([0xD5, 0xA7], .cmpZpx 0xA7),
      ([0xD6, 0xA7], .decZpx 0xA7), ([0xD9, 0x34, 0x12], .cmpAby 0x1234), ([0xDD, 0x34, 0x12], .cmpAbx 0x1234),
      ([0xDE, 0x34, 0x12], .decAbx 0x1234)] = true := by decide

/-- The words of 30_encoding.md §7, arithmetic. -/
theorem test_decode_arithmetic_2 :
    allDecode [
      ([0xE0, 0xA7], .cpxImm 0xA7), ([0xE1, 0xA7], .sbcIzx 0xA7), ([0xE4, 0xA7], .cpxZp 0xA7),
      ([0xE5, 0xA7], .sbcZp 0xA7), ([0xE6, 0xA7], .incZp 0xA7), ([0xE8], .inx), ([0xE9, 0xA7], .sbcImm 0xA7),
      ([0xEC, 0x34, 0x12], .cpxAbs 0x1234), ([0xED, 0x34, 0x12], .sbcAbs 0x1234),
      ([0xEE, 0x34, 0x12], .incAbs 0x1234), ([0xF1, 0xA7], .sbcIzy 0xA7), ([0xF5, 0xA7], .sbcZpx 0xA7),
      ([0xF6, 0xA7], .incZpx 0xA7), ([0xF9, 0x34, 0x12], .sbcAby 0x1234), ([0xFD, 0x34, 0x12], .sbcAbx 0x1234),
      ([0xFE, 0x34, 0x12], .incAbx 0x1234)] = true := by decide

/-- The words of 30_encoding.md §7, load store transfer. -/
theorem test_decode_load_store_transfer_1 :
    allDecode [
      ([0x81, 0xA7], .staIzx 0xA7), ([0x84, 0xA7], .styZp 0xA7), ([0x85, 0xA7], .staZp 0xA7),
      ([0x86, 0xA7], .stxZp 0xA7), ([0x8A], .txa), ([0x8C, 0x34, 0x12], .styAbs 0x1234),
      ([0x8D, 0x34, 0x12], .staAbs 0x1234), ([0x8E, 0x34, 0x12], .stxAbs 0x1234), ([0x91, 0xA7], .staIzy 0xA7),
      ([0x94, 0xA7], .styZpx 0xA7), ([0x95, 0xA7], .staZpx 0xA7), ([0x96, 0xA7], .stxZpy 0xA7), ([0x98], .tya),
      ([0x99, 0x34, 0x12], .staAby 0x1234), ([0x9A], .txs), ([0x9D, 0x34, 0x12], .staAbx 0x1234),
      ([0xA0, 0xA7], .ldyImm 0xA7), ([0xA1, 0xA7], .ldaIzx 0xA7), ([0xA2, 0xA7], .ldxImm 0xA7),
      ([0xA4, 0xA7], .ldyZp 0xA7), ([0xA5, 0xA7], .ldaZp 0xA7), ([0xA6, 0xA7], .ldxZp 0xA7), ([0xA8], .tay),
      ([0xA9, 0xA7], .ldaImm 0xA7), ([0xAA], .tax), ([0xAC, 0x34, 0x12], .ldyAbs 0x1234)] = true := by decide

/-- The words of 30_encoding.md §7, load store transfer. -/
theorem test_decode_load_store_transfer_2 :
    allDecode [
      ([0xAD, 0x34, 0x12], .ldaAbs 0x1234), ([0xAE, 0x34, 0x12], .ldxAbs 0x1234), ([0xB1, 0xA7], .ldaIzy 0xA7),
      ([0xB4, 0xA7], .ldyZpx 0xA7), ([0xB5, 0xA7], .ldaZpx 0xA7), ([0xB6, 0xA7], .ldxZpy 0xA7),
      ([0xB9, 0x34, 0x12], .ldaAby 0x1234), ([0xBA], .tsx), ([0xBC, 0x34, 0x12], .ldyAbx 0x1234),
      ([0xBD, 0x34, 0x12], .ldaAbx 0x1234), ([0xBE, 0x34, 0x12], .ldxAby 0x1234)] = true := by decide

/-! ### Instructions (95_test_vectors.md §2) -/

/-- V1: LDA #$00. -/
theorem test_v1_lda_00 :
    ran (machine (cpu 0x55 0x00 0x00 0xFD 0x0300 0b000000) [] [0xA9, 0x00]) =
      some ((cpu 0x00 0x00 0x00 0xFD 0x0302 0b000010), 2, []) := by decide

/-- V2: LDA #$80. -/
theorem test_v2_lda_80 :
    ran (machine (cpu 0x00 0x00 0x00 0xFD 0x0300 0b000000) [] [0xA9, 0x80]) =
      some ((cpu 0x80 0x00 0x00 0xFD 0x0302 0b100000), 2, []) := by decide

/-- V3: LDA zp,X wraps in page 0. -/
theorem test_v3_lda_zp_x_wraps_in_page_0 :
    ran (machine (cpu 0x00 0x20 0x00 0xFD 0x0300 0b000000) [(0x0010, 0x7F)] [0xB5, 0xF0]) =
      some ((cpu 0x7F 0x20 0x00 0xFD 0x0302 0b000000), 4, []) := by decide

/-- V4: LDA abs,X no page cross. -/
theorem test_v4_lda_abs_x_no_page_cross :
    ran (machine (cpu 0x00 0xFF 0x00 0xFD 0x0300 0b000000) [(0x04FF, 0x01)] [0xBD, 0x00, 0x04]) =
      some ((cpu 0x01 0xFF 0x00 0xFD 0x0303 0b000000), 4, []) := by decide

/-- V5: LDA abs,X page cross +1. -/
theorem test_v5_lda_abs_x_page_cross_1 :
    ran (machine (cpu 0x00 0x01 0x00 0xFD 0x0300 0b000000) [(0x0500, 0x02)] [0xBD, 0xFF, 0x04]) =
      some ((cpu 0x02 0x01 0x00 0xFD 0x0303 0b000000), 5, []) := by decide

/-- V6: LDA (zp,X) pointer wraps. -/
theorem test_v6_lda_zp_x_pointer_wraps :
    ran (machine (cpu 0x00 0x01 0x00 0xFD 0x0300 0b000000) [(0x0000, 0x02), (0x00FF, 0x34), (0x0234, 0x99)] [0xA1, 0xFE]) =
      some ((cpu 0x99 0x01 0x00 0xFD 0x0302 0b100000), 6, []) := by decide

/-- V7: LDA (zp),Y pointer at $FF, page cross. -/
theorem test_v7_lda_zp_y_pointer_at_ff_page_cross :
    ran (machine (cpu 0x00 0x00 0x10 0xFD 0x0300 0b000000) [(0x0000, 0x02), (0x00FF, 0xF8), (0x0308, 0xAA)] [0xB1, 0xFF]) =
      some ((cpu 0xAA 0x00 0x10 0xFD 0x0302 0b100000), 6, []) := by decide

/-- V8: LDX zp,Y. -/
theorem test_v8_ldx_zp_y :
    ran (machine (cpu 0x00 0x00 0x05 0xFD 0x0300 0b000000) [(0x0085, 0x00)] [0xB6, 0x80]) =
      some ((cpu 0x00 0x00 0x05 0xFD 0x0302 0b000010), 4, []) := by decide

/-- V9: LDY abs,X page cross. -/
theorem test_v9_ldy_abs_x_page_cross :
    ran (machine (cpu 0x00 0x20 0x00 0xFD 0x0300 0b000000) [(0x0510, 0xFF)] [0xBC, 0xF0, 0x04]) =
      some ((cpu 0x00 0x20 0xFF 0xFD 0x0303 0b100000), 5, []) := by decide

/-- V10: STA abs,X page cross, no penalty. -/
theorem test_v10_sta_abs_x_page_cross_no_penalty :
    ran (machine (cpu 0x42 0x01 0x00 0xFD 0x0300 0b000000) [] [0x9D, 0xFF, 0x04]) =
      some ((cpu 0x42 0x01 0x00 0xFD 0x0303 0b000000), 5, [(0x0500, 0x42)]) := by decide

/-- V11: STA (zp),Y. -/
theorem test_v11_sta_zp_y :
    ran (machine (cpu 0x43 0x00 0x02 0xFD 0x0300 0b000000) [(0x0010, 0x00), (0x0011, 0x06)] [0x91, 0x10]) =
      some ((cpu 0x43 0x00 0x02 0xFD 0x0302 0b000000), 6, [(0x0602, 0x43)]) := by decide

/-- V12: STX zp,Y wraps. -/
theorem test_v12_stx_zp_y_wraps :
    ran (machine (cpu 0x00 0x11 0x02 0xFD 0x0300 0b000000) [] [0x96, 0xFF]) =
      some ((cpu 0x00 0x11 0x02 0xFD 0x0302 0b000000), 4, [(0x0001, 0x11)]) := by decide

/-- V13: STY abs. -/
theorem test_v13_sty_abs :
    ran (machine (cpu 0x00 0x00 0x9C 0xFD 0x0300 0b100010) [] [0x8C, 0x00, 0x07]) =
      some ((cpu 0x00 0x00 0x9C 0xFD 0x0303 0b100010), 4, [(0x0700, 0x9C)]) := by decide

/-- V14: TAX sets N. -/
theorem test_v14_tax_sets_n :
    ran (machine (cpu 0x80 0x00 0x00 0xFD 0x0300 0b000000) [] [0xAA]) =
      some ((cpu 0x80 0x80 0x00 0xFD 0x0301 0b100000), 2, []) := by decide

/-- V15: TAY sets Z. -/
theorem test_v15_tay_sets_z :
    ran (machine (cpu 0x00 0x00 0x12 0xFD 0x0300 0b000000) [] [0xA8]) =
      some ((cpu 0x00 0x00 0x00 0xFD 0x0301 0b000010), 2, []) := by decide

/-- V16: TXA. -/
theorem test_v16_txa :
    ran (machine (cpu 0x00 0x01 0x00 0xFD 0x0300 0b100010) [] [0x8A]) =
      some ((cpu 0x01 0x01 0x00 0xFD 0x0301 0b000000), 2, []) := by decide

/-- V17: TYA. -/
theorem test_v17_tya :
    ran (machine (cpu 0x00 0x00 0xFE 0xFD 0x0300 0b000000) [] [0x98]) =
      some ((cpu 0xFE 0x00 0xFE 0xFD 0x0301 0b100000), 2, []) := by decide

/-- V18: TSX sets flags. -/
theorem test_v18_tsx_sets_flags :
    ran (machine (cpu 0x00 0x00 0x00 0x00 0x0300 0b000000) [] [0xBA]) =
      some ((cpu 0x00 0x00 0x00 0x00 0x0301 0b000010), 2, []) := by decide

/-- V19: TXS sets no flags. -/
theorem test_v19_txs_sets_no_flags :
    ran (machine (cpu 0x00 0x00 0x00 0xFD 0x0300 0b100000) [] [0x9A]) =
      some ((cpu 0x00 0x00 0x00 0x00 0x0301 0b100000), 2, []) := by decide

/-- V20: PHA. -/
theorem test_v20_pha :
    ran (machine (cpu 0x5A 0x00 0x00 0xFD 0x0300 0b000000) [] [0x48]) =
      some ((cpu 0x5A 0x00 0x00 0xFC 0x0301 0b000000), 3, [(0x01FD, 0x5A)]) := by decide

/-- V21: PHA with S=$00 wraps. -/
theorem test_v21_pha_with_s_00_wraps :
    ran (machine (cpu 0x5A 0x00 0x00 0x00 0x0300 0b000000) [] [0x48]) =
      some ((cpu 0x5A 0x00 0x00 0xFF 0x0301 0b000000), 3, [(0x0100, 0x5A)]) := by decide

/-- V22: PHP pushes B and bit 5 as 1. -/
theorem test_v22_php_pushes_b_and_bit_5_as_1 :
    ran (machine (cpu 0x00 0x00 0x00 0xFD 0x0300 0b100001) [] [0x08]) =
      some ((cpu 0x00 0x00 0x00 0xFC 0x0301 0b100001), 3, [(0x01FD, 0xB1)]) := by decide

/-- V23: PLA sets Z. -/
theorem test_v23_pla_sets_z :
    ran (machine (cpu 0x12 0x00 0x00 0xFC 0x0300 0b000000) [(0x01FD, 0x00)] [0x68]) =
      some ((cpu 0x00 0x00 0x00 0xFD 0x0301 0b000010), 4, []) := by decide

/-- V24: PLA with S=$FF wraps. -/
theorem test_v24_pla_with_s_ff_wraps :
    ran (machine (cpu 0x00 0x00 0x00 0xFF 0x0300 0b000000) [(0x0100, 0x80)] [0x68]) =
      some ((cpu 0x80 0x00 0x00 0x00 0x0301 0b100000), 4, []) := by decide

/-- V25: PLP ignores bits 5 and 4. -/
theorem test_v25_plp_ignores_bits_5_and_4 :
    ran (machine (cpu 0x00 0x00 0x00 0xFC 0x0300 0b000000) [(0x01FD, 0xFF)] [0x28]) =
      some ((cpu 0x00 0x00 0x00 0xFD 0x0301 0b111111), 4, []) := by decide

/-- V26: PLP of $00. -/
theorem test_v26_plp_of_00 :
    ran (machine (cpu 0x00 0x00 0x00 0xFC 0x0300 0b111111) [(0x01FD, 0x00)] [0x28]) =
      some ((cpu 0x00 0x00 0x00 0xFD 0x0301 0b000000), 4, []) := by decide

/-- V30: ADC $80+$80. -/
theorem test_v30_adc_80_80 :
    ran (machine (cpu 0x80 0x00 0x00 0xFD 0x0300 0b000000) [] [0x69, 0x80]) =
      some ((cpu 0x00 0x00 0x00 0xFD 0x0302 0b010011), 2, []) := by decide

/-- V32: ADC $7F+$00+C. -/
theorem test_v32_adc_7f_00_c :
    ran (machine (cpu 0x7F 0x00 0x00 0xFD 0x0300 0b000001) [] [0x69, 0x00]) =
      some ((cpu 0x80 0x00 0x00 0xFD 0x0302 0b110000), 2, []) := by decide

/-- V37: SBC signed overflow. -/
theorem test_v37_sbc_signed_overflow :
    ran (machine (cpu 0x50 0x00 0x00 0xFD 0x0300 0b000001) [] [0xE9, 0xB0]) =
      some ((cpu 0xA0 0x00 0x00 0xFD 0x0302 0b110000), 2, []) := by decide

/-- V38: SBC $80-$01 overflow. -/
theorem test_v38_sbc_80_01_overflow :
    ran (machine (cpu 0x80 0x00 0x00 0xFD 0x0300 0b000001) [] [0xE9, 0x01]) =
      some ((cpu 0x7F 0x00 0x00 0xFD 0x0302 0b010001), 2, []) := by decide

/-- V40: CMP equal. -/
theorem test_v40_cmp_equal :
    ran (machine (cpu 0x40 0x00 0x00 0xFD 0x0300 0b000000) [] [0xC9, 0x40]) =
      some ((cpu 0x40 0x00 0x00 0xFD 0x0302 0b000011), 2, []) := by decide

/-- V43: CMP unsigned: $01 vs $FF. -/
theorem test_v43_cmp_unsigned_01_vs_ff :
    ran (machine (cpu 0x01 0x00 0x00 0xFD 0x0300 0b000000) [] [0xC9, 0xFF]) =
      some ((cpu 0x01 0x00 0x00 0xFD 0x0302 0b000000), 2, []) := by decide

/-- V45: CPX zp. -/
theorem test_v45_cpx_zp :
    ran (machine (cpu 0x00 0x10 0x00 0xFD 0x0300 0b000000) [(0x0020, 0x10)] [0xE4, 0x20]) =
      some ((cpu 0x00 0x10 0x00 0xFD 0x0302 0b000011), 3, []) := by decide

/-- V46: CPY abs. -/
theorem test_v46_cpy_abs :
    ran (machine (cpu 0x00 0x00 0x00 0xFD 0x0300 0b000000) [(0x0400, 0x01)] [0xCC, 0x00, 0x04]) =
      some ((cpu 0x00 0x00 0x00 0xFD 0x0303 0b100000), 4, []) := by decide

/-- V47: INC zp wraps to 0. -/
theorem test_v47_inc_zp_wraps_to_0 :
    ran (machine (cpu 0x00 0x00 0x00 0xFD 0x0300 0b000000) [(0x0010, 0xFF)] [0xE6, 0x10]) =
      some ((cpu 0x00 0x00 0x00 0xFD 0x0302 0b000010), 5, [(0x0010, 0x00)]) := by decide

/-- V48: INC abs,X. -/
theorem test_v48_inc_abs_x :
    ran (machine (cpu 0x00 0x01 0x00 0xFD 0x0300 0b000000) [(0x0500, 0x7F)] [0xFE, 0xFF, 0x04]) =
      some ((cpu 0x00 0x01 0x00 0xFD 0x0303 0b100000), 7, [(0x0500, 0x80)]) := by decide

/-- V49: DEC zp to $FF. -/
theorem test_v49_dec_zp_to_ff :
    ran (machine (cpu 0x00 0x00 0x00 0xFD 0x0300 0b000000) [(0x0010, 0x00)] [0xC6, 0x10]) =
      some ((cpu 0x00 0x00 0x00 0xFD 0x0302 0b100000), 5, [(0x0010, 0xFF)]) := by decide

/-- V50: INX wraps. -/
theorem test_v50_inx_wraps :
    ran (machine (cpu 0x00 0xFF 0x00 0xFD 0x0300 0b000000) [] [0xE8]) =
      some ((cpu 0x00 0x00 0x00 0xFD 0x0301 0b000010), 2, []) := by decide

/-- V51: INY. -/
theorem test_v51_iny :
    ran (machine (cpu 0x00 0x00 0x7F 0xFD 0x0300 0b000000) [] [0xC8]) =
      some ((cpu 0x00 0x00 0x80 0xFD 0x0301 0b100000), 2, []) := by decide

/-- V52: DEX to 0. -/
theorem test_v52_dex_to_0 :
    ran (machine (cpu 0x00 0x01 0x00 0xFD 0x0300 0b000000) [] [0xCA]) =
      some ((cpu 0x00 0x00 0x00 0xFD 0x0301 0b000010), 2, []) := by decide

/-- V53: DEY wraps. -/
theorem test_v53_dey_wraps :
    ran (machine (cpu 0x00 0x00 0x00 0xFD 0x0300 0b000000) [] [0x88]) =
      some ((cpu 0x00 0x00 0xFF 0xFD 0x0301 0b100000), 2, []) := by decide

/-- V54: AND to zero. -/
theorem test_v54_and_to_zero :
    ran (machine (cpu 0xF0 0x00 0x00 0xFD 0x0300 0b000000) [] [0x29, 0x0F]) =
      some ((cpu 0x00 0x00 0x00 0xFD 0x0302 0b000010), 2, []) := by decide

/-- V55: ORA sets N. -/
theorem test_v55_ora_sets_n :
    ran (machine (cpu 0x01 0x00 0x00 0xFD 0x0300 0b000000) [] [0x09, 0x80]) =
      some ((cpu 0x81 0x00 0x00 0xFD 0x0302 0b100000), 2, []) := by decide

/-- V56: EOR self-cancel. -/
theorem test_v56_eor_self_cancel :
    ran (machine (cpu 0xFF 0x00 0x00 0xFD 0x0300 0b000000) [] [0x49, 0xFF]) =
      some ((cpu 0x00 0x00 0x00 0xFD 0x0302 0b000010), 2, []) := by decide

/-- V57: BIT: N,V from operand, Z from A&M. -/
theorem test_v57_bit_n_v_from_operand_z_from_a_m :
    ran (machine (cpu 0x00 0x00 0x00 0xFD 0x0300 0b000000) [(0x0010, 0xC0)] [0x24, 0x10]) =
      some ((cpu 0x00 0x00 0x00 0xFD 0x0302 0b110010), 3, []) := by decide

/-- V58: BIT: operand $00 with A=$FF. -/
theorem test_v58_bit_operand_00_with_a_ff :
    ran (machine (cpu 0xFF 0x00 0x00 0xFD 0x0300 0b110000) [(0x0400, 0x01)] [0x2C, 0x00, 0x04]) =
      some ((cpu 0xFF 0x00 0x00 0xFD 0x0303 0b000000), 4, []) := by decide

/-- V59: ASL A carry out. -/
theorem test_v59_asl_a_carry_out :
    ran (machine (cpu 0x80 0x00 0x00 0xFD 0x0300 0b000000) [] [0x0A]) =
      some ((cpu 0x00 0x00 0x00 0xFD 0x0301 0b000011), 2, []) := by decide

/-- V60: ASL zp. -/
theorem test_v60_asl_zp :
    ran (machine (cpu 0x00 0x00 0x00 0xFD 0x0300 0b000000) [(0x0010, 0x41)] [0x06, 0x10]) =
      some ((cpu 0x00 0x00 0x00 0xFD 0x0302 0b100000), 5, [(0x0010, 0x82)]) := by decide

/-- V61: LSR A to zero. -/
theorem test_v61_lsr_a_to_zero :
    ran (machine (cpu 0x01 0x00 0x00 0xFD 0x0300 0b000000) [] [0x4A]) =
      some ((cpu 0x00 0x00 0x00 0xFD 0x0301 0b000011), 2, []) := by decide

/-- V62: LSR abs clears N. -/
theorem test_v62_lsr_abs_clears_n :
    ran (machine (cpu 0x00 0x00 0x00 0xFD 0x0300 0b100000) [(0x0400, 0xFF)] [0x4E, 0x00, 0x04]) =
      some ((cpu 0x00 0x00 0x00 0xFD 0x0303 0b000001), 6, [(0x0400, 0x7F)]) := by decide

/-- V63: ROL A carry through. -/
theorem test_v63_rol_a_carry_through :
    ran (machine (cpu 0x80 0x00 0x00 0xFD 0x0300 0b000001) [] [0x2A]) =
      some ((cpu 0x01 0x00 0x00 0xFD 0x0301 0b000001), 2, []) := by decide

/-- V64: ROL zp,X. -/
theorem test_v64_rol_zp_x :
    ran (machine (cpu 0x00 0x01 0x00 0xFD 0x0300 0b000000) [(0x0011, 0x40)] [0x36, 0x10]) =
      some ((cpu 0x00 0x01 0x00 0xFD 0x0302 0b100000), 6, [(0x0011, 0x80)]) := by decide

/-- V65: ROR A carry into bit 7. -/
theorem test_v65_ror_a_carry_into_bit_7 :
    ran (machine (cpu 0x01 0x00 0x00 0xFD 0x0300 0b000001) [] [0x6A]) =
      some ((cpu 0x80 0x00 0x00 0xFD 0x0301 0b100001), 2, []) := by decide

/-- V66: ROR abs,X no carry. -/
theorem test_v66_ror_abs_x_no_carry :
    ran (machine (cpu 0x00 0x02 0x00 0xFD 0x0300 0b000000) [(0x0402, 0x02)] [0x7E, 0x00, 0x04]) =
      some ((cpu 0x00 0x02 0x00 0xFD 0x0303 0b000000), 7, [(0x0402, 0x01)]) := by decide

/-- V67: BNE taken, same page. -/
theorem test_v67_bne_taken_same_page :
    ran (machine (cpu 0x00 0x00 0x00 0xFD 0x0300 0b000000) [] [0xD0, 0x10]) =
      some ((cpu 0x00 0x00 0x00 0xFD 0x0312 0b000000), 3, []) := by decide

/-- V68: BNE not taken. -/
theorem test_v68_bne_not_taken :
    ran (machine (cpu 0x00 0x00 0x00 0xFD 0x0300 0b000010) [] [0xD0, 0x10]) =
      some ((cpu 0x00 0x00 0x00 0xFD 0x0302 0b000010), 2, []) := by decide

/-- V69: BEQ taken backward to self. -/
theorem test_v69_beq_taken_backward_to_self :
    ran (machine (cpu 0x00 0x00 0x00 0xFD 0x0300 0b000010) [] [0xF0, 0xFE]) =
      some ((cpu 0x00 0x00 0x00 0xFD 0x0300 0b000010), 3, []) := by decide

/-- V70: BCC taken across page. -/
theorem test_v70_bcc_taken_across_page :
    ran (machine (cpu 0x00 0x00 0x00 0xFD 0x03F0 0b000000) [] [0x90, 0x7F]) =
      some ((cpu 0x00 0x00 0x00 0xFD 0x0471 0b000000), 4, []) := by decide

/-- V71: BCS taken backward across page. -/
theorem test_v71_bcs_taken_backward_across_page :
    ran (machine (cpu 0x00 0x00 0x00 0xFD 0x0300 0b000001) [] [0xB0, 0x80]) =
      some ((cpu 0x00 0x00 0x00 0xFD 0x0282 0b000001), 4, []) := by decide

/-- V72: BMI taken. -/
theorem test_v72_bmi_taken :
    ran (machine (cpu 0x00 0x00 0x00 0xFD 0x0300 0b100000) [] [0x30, 0x02]) =
      some ((cpu 0x00 0x00 0x00 0xFD 0x0304 0b100000), 3, []) := by decide

/-- V73: BPL not taken. -/
theorem test_v73_bpl_not_taken :
    ran (machine (cpu 0x00 0x00 0x00 0xFD 0x0300 0b100000) [] [0x10, 0x02]) =
      some ((cpu 0x00 0x00 0x00 0xFD 0x0302 0b100000), 2, []) := by decide

/-- V74: BVC taken. -/
theorem test_v74_bvc_taken :
    ran (machine (cpu 0x00 0x00 0x00 0xFD 0x0300 0b000000) [] [0x50, 0x02]) =
      some ((cpu 0x00 0x00 0x00 0xFD 0x0304 0b000000), 3, []) := by decide

/-- V75: BVS taken. -/
theorem test_v75_bvs_taken :
    ran (machine (cpu 0x00 0x00 0x00 0xFD 0x0300 0b010000) [] [0x70, 0x02]) =
      some ((cpu 0x00 0x00 0x00 0xFD 0x0304 0b010000), 3, []) := by decide

/-- V76: JMP abs. -/
theorem test_v76_jmp_abs :
    ran (machine (cpu 0x00 0x00 0x00 0xFD 0x0300 0b000000) [] [0x4C, 0x34, 0x12]) =
      some ((cpu 0x00 0x00 0x00 0xFD 0x1234 0b000000), 3, []) := by decide

/-- V77: JMP (ind) page-wrap bug. -/
theorem test_v77_jmp_ind_page_wrap_bug :
    ran (machine (cpu 0x00 0x00 0x00 0xFD 0x0300 0b000000) [(0x0200, 0x04), (0x02FF, 0x00)] [0x6C, 0xFF, 0x02]) =
      some ((cpu 0x00 0x00 0x00 0xFD 0x0400 0b000000), 5, []) := by decide

/-- V78: JSR. -/
theorem test_v78_jsr :
    ran (machine (cpu 0x00 0x00 0x00 0xFD 0x0300 0b000000) [] [0x20, 0x00, 0x05]) =
      some ((cpu 0x00 0x00 0x00 0xFB 0x0500 0b000000), 6, [(0x01FD, 0x03), (0x01FC, 0x02)]) := by decide

/-- V79: JSR with S=$00. -/
theorem test_v79_jsr_with_s_00 :
    ran (machine (cpu 0x00 0x00 0x00 0x00 0x0300 0b000000) [] [0x20, 0x00, 0x05]) =
      some ((cpu 0x00 0x00 0x00 0xFE 0x0500 0b000000), 6, [(0x0100, 0x03), (0x01FF, 0x02)]) := by decide

/-- V80: RTS. -/
theorem test_v80_rts :
    ran (machine (cpu 0x00 0x00 0x00 0xFB 0x0300 0b000000) [(0x01FC, 0x02), (0x01FD, 0x03)] [0x60]) =
      some ((cpu 0x00 0x00 0x00 0xFD 0x0303 0b000000), 6, []) := by decide

/-- V81: RTS of $FFFF. -/
theorem test_v81_rts_of_ffff :
    ran (machine (cpu 0x00 0x00 0x00 0xFB 0x0300 0b000000) [(0x01FC, 0xFF), (0x01FD, 0xFF)] [0x60]) =
      some ((cpu 0x00 0x00 0x00 0xFD 0x0000 0b000000), 6, []) := by decide

/-- V82: BRK. -/
theorem test_v82_brk :
    ran (machine (cpu 0x00 0x00 0x00 0xFD 0x0300 0b000001) [(0xFFFE, 0x00), (0xFFFF, 0x06)] [0x00, 0xEA]) =
      some ((cpu 0x00 0x00 0x00 0xFA 0x0600 0b000101), 7, [(0x01FD, 0x03), (0x01FC, 0x02), (0x01FB, 0x31)]) := by decide

/-- V83: BRK with D set keeps D. -/
theorem test_v83_brk_with_d_set_keeps_d :
    ran (machine (cpu 0x00 0x00 0x00 0xFD 0x0300 0b001000) [(0xFFFE, 0x00), (0xFFFF, 0x06)] [0x00, 0xEA]) =
      some ((cpu 0x00 0x00 0x00 0xFA 0x0600 0b001100), 7, [(0x01FD, 0x03), (0x01FC, 0x02), (0x01FB, 0x38)]) := by decide

/-- V84: RTI. -/
theorem test_v84_rti :
    ran (machine (cpu 0x00 0x00 0x00 0xFA 0x0300 0b000000) [(0x01FB, 0xF3), (0x01FC, 0x02), (0x01FD, 0x03)] [0x40]) =
      some ((cpu 0x00 0x00 0x00 0xFD 0x0302 0b110011), 6, []) := by decide

/-- V85: CLC. -/
theorem test_v85_clc :
    ran (machine (cpu 0x00 0x00 0x00 0xFD 0x0300 0b100011) [] [0x18]) =
      some ((cpu 0x00 0x00 0x00 0xFD 0x0301 0b100010), 2, []) := by decide

/-- V86: SEC. -/
theorem test_v86_sec :
    ran (machine (cpu 0x00 0x00 0x00 0xFD 0x0300 0b000000) [] [0x38]) =
      some ((cpu 0x00 0x00 0x00 0xFD 0x0301 0b000001), 2, []) := by decide

/-- V87: CLI. -/
theorem test_v87_cli :
    ran (machine (cpu 0x00 0x00 0x00 0xFD 0x0300 0b000100) [] [0x58]) =
      some ((cpu 0x00 0x00 0x00 0xFD 0x0301 0b000000), 2, []) := by decide

/-- V88: SEI. -/
theorem test_v88_sei :
    ran (machine (cpu 0x00 0x00 0x00 0xFD 0x0300 0b000000) [] [0x78]) =
      some ((cpu 0x00 0x00 0x00 0xFD 0x0301 0b000100), 2, []) := by decide

/-- V89: CLD. -/
theorem test_v89_cld :
    ran (machine (cpu 0x00 0x00 0x00 0xFD 0x0300 0b001000) [] [0xD8]) =
      some ((cpu 0x00 0x00 0x00 0xFD 0x0301 0b000000), 2, []) := by decide

/-- V90: SED. -/
theorem test_v90_sed :
    ran (machine (cpu 0x00 0x00 0x00 0xFD 0x0300 0b000000) [] [0xF8]) =
      some ((cpu 0x00 0x00 0x00 0xFD 0x0301 0b001000), 2, []) := by decide

/-- V91: CLV. -/
theorem test_v91_clv :
    ran (machine (cpu 0x00 0x00 0x00 0xFD 0x0300 0b010000) [] [0xB8]) =
      some ((cpu 0x00 0x00 0x00 0xFD 0x0301 0b000000), 2, []) := by decide

/-- V92: NOP. -/
theorem test_v92_nop :
    ran (machine (cpu 0x11 0x00 0x00 0xFD 0x0300 0b111111) [] [0xEA]) =
      some ((cpu 0x11 0x00 0x00 0xFD 0x0301 0b111111), 2, []) := by decide

/-! ### The illegal opcode, DMA, interrupts (95_test_vectors.md §2.7, §3) -/

/-- The machine of §5: code at $8000, vectors $9000, $8000, $9000, and a handler at $9000. -/
def console (code handler : List Byte) : State :=
  let m := pokes [(0xFFFB, 0x90), (0xFFFD, 0x80), (0xFFFF, 0x90)] (State.powerOn Cart.blank)
  let n := pokes (code.mapIdx fun k b => (0x8000 + BitVec.ofNat 16 k, b)) m
  { resetOp (pokes (handler.mapIdx fun k b => (0x9000 + BitVec.ofNat 16 k, b)) n) with trace := [] }

/-- V93, T5: the opcode at PC is illegal: one read, nothing else, and every later step reports it. -/
theorem test_v93_t5_illegal_opcode :
    (match step (console [0x02] []) with
      | .next t =>
        t.ctl.lastResult == .fault { op := 0x02, addr := 0x8000 } && t.regs.pc == 0x8000 && t.ctl.cyclesTotal == 7 &&
          t.ppu.dot == 0 && (t.events.map fun e => (e.address, e.value, e.cycle)) == [(0x8000, 0x02, 7)] &&
          (match step t with
            | .fault f => f == .illegalOpcode 0x02 0x8000
            | _ => false)
      | _ => false) = true := by decide

/-- V97: $EB is illegal. -/
theorem test_v97_illegal_opcode :
    (match step (machine (cpu 1 0 0 0xFD 0x0300 0) [] [0xEB]) with
      | .next t => t.ctl.lastResult == .fault { op := 0xEB, addr := 0x0300 } && t.regs == cpu 1 0 0 0xFD 0x0300 0
      | _ => false) = true := by decide

/-- T6: a reset clears the fault. -/
theorem test_t6_reset_clears_fault :
    (resetOp ((console [0x02] []).raise { op := 0x02, addr := 0x8000 })).ctl.fault = none := by decide

/-- W1, T7: reset reads $FFFC then $FFFD and pushes nothing. -/
theorem test_w1_t7_reset :
    let t := resetOp { console [0xA2] [] with trace := [] }
    t.regs = cpu 0 0 0 0xFD 0x8000 0b000100 ∧ t.ctl.cyclesTotal = 7 ∧ t.ctl.instrPc = 0x8000 ∧
    (t.events.map fun e => (e.address, e.value, e.programCounter)) = [(0xFFFC, 0x00, 0xFFFC), (0xFFFD, 0x80, 0xFFFC)] ∧
    t.ram = [] := by decide

/-- The reset state is the blank cartridge's machine, constructed and reset (R1032, R1030). -/
theorem test_reset_is_resetOp : resetOp (State.powerOn Cart.blank) = State.reset := by decide

set_option maxRecDepth 20000 in
/-- T10 and T11: the parity of `instr_cycle + base` decides between 518 and 517 cycles. -/
theorem test_t10_t11_dma_parity :
    (busWrite 0x4014 0 ((console [] []).startStep.begin 4)).ctl.stepCycles = 518 ∧
    (busWrite 0x4014 0 (({ console [] [] with ctl := { (console [] []).ctl with cyclesTotal := 10 } }).startStep.begin 4)).ctl.stepCycles
      = 517 := by decide

set_option maxRecDepth 20000 in
/-- T10: page 2 is copied, from OAMADDR on, and the last byte wraps to it. -/
theorem test_t10_dma_copies :
    let t := wr [(0x2003, 0xFC), (0x4014, 0x02)] (pokes [(0x0200, 0x11), (0x0201, 0x22), (0x02FF, 0x33)] State.reset)
    Store.read t.ppu.oam 0xFC = 0x11 ∧ Store.read t.ppu.oam 0xFD = 0x22 ∧ Store.read t.ppu.oam 0xFB = 0x33 ∧
    t.ppu.oamAddr = 0xFC := by decide

/-- T2: NMI entry pushes $80, $05, $A4 and takes the vector. -/
theorem test_t2_nmi_entry :
    let s := { console [] [] with regs := cpu 0x80 0 0 0xFD 0x8005 0b100100 }
    ran { s with ctl := { s.ctl with nmiPending := true } } =
      some (cpu 0x80 0 0 0xFA 0x9000 0b100100, 7, [(0x01FD, 0x80), (0x01FC, 0x05), (0x01FB, 0xA4)]) := by decide

/-- T3: IRQ entry pushes P with I = 0 and B = 0, and sets I. -/
theorem test_t3_irq_entry :
    let s := { console [] [] with regs := cpu 0 0 0 0xFD 0x8001 0 }
    ran { s with apu := { s.apu with frameIrq := true } } =
      some (cpu 0 0 0 0xFA 0x9000 0b000100, 7, [(0x01FD, 0x80), (0x01FC, 0x01), (0x01FB, 0x20)]) := by decide

/-- T4: with I = 1 the same line is not taken. -/
theorem test_t4_irq_masked :
    let s := console [0xEA] []
    ran { s with apu := { s.apu with frameIrq := true } } = some (cpu 0 0 0 0xFD 0x8001 0b000100, 2, []) := by decide

/-- T14: NMI before IRQ, and the IRQ stays. -/
theorem test_t14_nmi_first :
    let s := { console [] [] with regs := cpu 0 0 0 0xFD 0x8001 0 }
    (match step { s with ctl := { s.ctl with nmiPending := true }, inputs := { s.inputs with extIrq := true } } with
      | .next t => t.ctl.lastResult == .interrupt .nmi 7 && t.irqLine && t.regs.p.i
      | _ => false) = true := by decide

/-- T13: an owed stall of 4 is added to the next step and cleared. -/
theorem test_t13_stall_paid :
    let s := console [0xEA] []
    (match step { s with ctl := { s.ctl with stallCycles := 4 } } with
      | .next t => t.ctl.lastResult == .instruction 6 && t.ctl.stallCycles == 0
      | _ => false) = true := by decide

/-- T1: the vertical blank flag is set at (241, 1) and latches an NMI when enabled. -/
theorem test_t1_vblank :
    let p := { State.reset.ppu with scanline := 241, dot := 1, ctrl := 0x80 }
    let t := ppuTick { State.reset with ppu := p }
    t.ppu.vblank = true ∧ t.ppu.frame = 1 ∧ t.ppu.dot = 2 ∧ t.ctl.nmiPending = true := by decide

/-! ### PPU registers (95_test_vectors.md §4.1) -/

theorem test_p1_ppuctrl :
    let t := wr [(0x2000, 0x03)] State.reset
    t.ppu.ctrl = 0x03 ∧ t.ppu.t = 0x0C00 := by decide

theorem test_p2_ppuscroll :
    let t := wr [(0x2005, 0x7D)] State.reset
    let u := wr [(0x2005, 0x5E)] t
    t.ppu.t = 0x000F ∧ t.ppu.fineX = 5 ∧ t.ppu.w = true ∧ u.ppu.t = 0x616F ∧ u.ppu.w = false := by decide

theorem test_p3_p4_ppuaddr_ppudata :
    let t := wr [(0x2006, 0x21)] State.reset
    let u := wr [(0x2006, 0x08)] t
    let x := wr [(0x2007, 0x55)] u
    t.ppu.t = 0x2100 ∧ t.ppu.w = true ∧ t.ppu.v = 0 ∧ u.ppu.t = 0x2108 ∧ u.ppu.v = 0x2108 ∧
    Store.read x.ppu.vram 0x108 = 0x55 ∧ x.ppu.v = 0x2109 := by decide

theorem test_p5_mirroring :
    let acts := wr [(0x2006, 0x25), (0x2006, 0x08), (0x2007, 0x66)]
    (acts State.reset).ppu.vram = [(0x108, 0x66)] ∧
    (acts { State.reset with cart := { Cart.blank with mirroring := .vertical } }).ppu.vram = [(0x508, 0x66)] := by decide

theorem test_p6_ppudata_buffer :
    let s := wr [(0x2006, 0x21), (0x2006, 0x08), (0x2007, 0x55), (0x2006, 0x21), (0x2006, 0x08)] State.reset
    rd 0x2007 2 s = [0x00, 0x55] ∧ (busRead 0x2007 (busRead 0x2007 s).2).2.ppu.v = 0x210A := by decide

theorem test_p7_status_clears_toggle :
    (wr [(0x2006, 0x3F), (0x2006, 0x00)] (busRead 0x2002 (wr [(0x2006, 0x21)] State.reset)).2).ppu.v = 0x3F00 := by decide

theorem test_p8_palette_mirror :
    let s := wr [(0x2006, 0x3F), (0x2006, 0x10), (0x2007, 0x2C)] State.reset
    let u := wr [(0x2006, 0x3F), (0x2006, 0x00)] s
    s.ppu.palette = [(0, 0x2C)] ∧ s.ppu.v = 0x3F11 ∧ (busRead 0x2007 u).1 = 0x2C ∧ (busRead 0x2007 u).2.ppu.v = 0x3F01 := by
  decide

theorem test_p9_palette_six_bits :
    (wr [(0x2006, 0x3F), (0x2006, 0x01), (0x2007, 0xFF)] State.reset).ppu.palette = [(1, 0x3F)] := by decide

theorem test_p10_oam_attribute :
    let s := wr [(0x2003, 0x02), (0x2004, 0xFF)] State.reset
    s.ppu.oam = [(2, 0xE3)] ∧ s.ppu.oamAddr = 3 := by decide

theorem test_p11_increment_32 :
    (wr [(0x2000, 0x04), (0x2006, 0x20), (0x2006, 0x00), (0x2007, 0), (0x2007, 0)] State.reset).ppu.v = 0x2040 := by decide

theorem test_p12_status :
    let s := { State.reset with ppu := { State.reset.ppu with vblank := true, ioLatch := 0x1F, w := true } }
    let r := busRead 0x2002 s
    r.1 = 0x9F ∧ r.2.ppu.vblank = false ∧ r.2.ppu.w = false ∧ r.2.ppu.ioLatch = 0x9F := by decide

theorem test_p13_nmi_enable_edge :
    let s := { State.reset with ppu := { State.reset.ppu with vblank := true } }
    let t := wr [(0x2000, 0x80)] s
    t.ctl.nmiPending = true ∧ (wr [(0x2000, 0x80)] t.clearNmi).ctl.nmiPending = false := by decide

theorem test_p14_io_latch : (busRead 0x2000 (wr [(0x2001, 0x1E)] State.reset)).1 = 0x1E := by decide

theorem test_p15_register_mirror : (wr [(0x3456, 0x80)] State.reset).ppu = (wr [(0x2006, 0x80)] State.reset).ppu := by decide

/-! ### APU (95_test_vectors.md §4.2) -/

theorem test_a1_a2_a3_length :
    let s := wr [(0x4015, 0x01), (0x4003, 0x08)] State.reset
    s.apu.pulse1.length = 254 ∧ (busRead 0x4015 { s with busLatch := 0x40 }).1 = 0x01 ∧
    (wr [(0x4003, 0x08)] State.reset).apu.pulse1.length = 0 ∧ (wr [(0x4015, 0x00)] s).apu.pulse1.length = 0 := by decide

theorem test_a4_a5_a14_dmc_registers :
    let s := wr [(0x4012, 0xFF), (0x4013, 0xFF), (0x4011, 0xFF)] State.reset
    let u := wr [(0x4012, 0x00), (0x4013, 0x00)] s
    s.apu.dmc.sampleAddr = 0xFFC0 ∧ s.apu.dmc.sampleLen = 4081 ∧ s.apu.dmc.level = 0x7F ∧ u.apu.dmc.sampleAddr = 0xC000 ∧
    u.apu.dmc.sampleLen = 1 := by decide

theorem test_a6_irq_inhibit :
    let s := wr [(0x4017, 0x40)] { State.reset with apu := { Apu.reset with frameIrq := true } }
    s.apu.frameIrq = false ∧ s.apu.fs.irqInhibit = true := by decide

theorem test_a7_immediate_clock :
    let s := wr [(0x4015, 0x01), (0x4003, 0x08), (0x4017, 0x80)] State.reset
    s.apu.fs.fiveStep = true ∧ s.apu.pulse1.length = 253 := by decide

theorem test_a8_a9_sweep_mutes :
    ({ Pulse.reset with timerPeriod := 7 }).muted true = true ∧ ({ Pulse.reset with timerPeriod := 0x400 }).muted true = true := by
  decide

theorem test_a10_sweep_target :
    let p := { Pulse.reset with timerPeriod := 0x100, swShift := 1, swNegate := true }
    p.target true = 0x7F ∧ p.target false = 0x80 := by decide

theorem test_a11_noise_shift :
    lfsrNext false 1 = 0x4000 ∧ lfsrNext true 1 = 0x4000 ∧ lfsrNext false 0x4000 = 0x2000 := by decide

theorem test_a12_noise_output :
    ({ Noise.reset with lfsr := 1, length := 5, constVol := true, vol := 9 }).output = 0 ∧
    ({ Noise.reset with lfsr := 2, length := 5, constVol := true, vol := 9 }).output = 9 := by decide

theorem test_a13_dmc_level :
    ({ Dmc.reset with level := 64, silence := false, shift := 1 }).nextLevel = 66 ∧
    ({ Dmc.reset with level := 126, silence := false, shift := 1 }).nextLevel = 126 ∧
    ({ Dmc.reset with level := 1, silence := false, shift := 0 }).nextLevel = 1 := by decide

theorem test_a15_envelope_start :
    ({ start := true, divider := 0, decay := 0 } : Envelope).clock 3 false = { start := false, divider := 3, decay := 15 } := by
  decide

/-- A16 to A19, as exact fractions: 95.88 / (8128/30 + 100), 159.79 / (8227/15 + 100), 95.88 / 8228, 0. -/
theorem test_a16_a19_mixer :
    mix 15 15 0 0 0 = (9588 / 100) / (8128 / 30 + 100) ∧ mix 0 0 15 0 0 = (15979 / 100) / (8227 / 15 + 100) ∧
    mix 1 0 0 0 0 = (9588 / 100) / 8228 ∧ mix 0 1 0 0 0 = mix 1 0 0 0 0 ∧ mix 0 0 0 0 0 = 0 := by
  refine ⟨?_, ?_, ?_, ?_, ?_⟩ <;> norm_num [mix, mixPulse, mixTnd]

theorem test_a20_four_step :
    let at_ := fun k => { Apu.reset with fs := { fiveStep := false, irqInhibit := false, cycle := k } }
    (at_ 14912).frameStep.fs.cycle = 14913 ∧ (at_ 29828).frameStep.fs.cycle = 0 ∧ (at_ 29828).frameStep.frameIrq = true := by
  decide

theorem test_a21_five_step :
    let at_ := fun k => { Apu.reset with fs := { fiveStep := true, irqInhibit := false, cycle := k } }
    (at_ 29828).frameStep.fs.cycle = 29829 ∧ (at_ 29828).frameStep.frameIrq = false ∧ (at_ 37280).frameStep.fs.cycle = 0 ∧
    (at_ 37280).frameStep.frameIrq = false := by decide

/-! ### Controllers, mappers, loading (95_test_vectors.md §4.3, §4.4) -/

theorem test_k1_controller :
    rd 0x4016 9 (wr [(0x4016, 1), (0x4016, 0)] (State.reset.setButtons1 0x09)) =
      [0x41, 0x40, 0x40, 0x41, 0x40, 0x40, 0x40, 0x40, 0x41] := by decide

theorem test_k2_strobe_held : rd 0x4016 3 (wr [(0x4016, 1)] (State.reset.setButtons1 0x01)) = [0x41, 0x41, 0x41] := by decide

theorem test_k3_port_two :
    rd 0x4017 8 (wr [(0x4016, 1), (0x4016, 0)] (State.reset.setButtons2 0x80)) =
      [0x40, 0x40, 0x40, 0x40, 0x40, 0x40, 0x40, 0x41] := by decide

theorem test_m1_m8_m9_storage :
    (busRead 0x1FFF (wr [(0x07FF, 0x11)] State.reset)).1 = 0x11 ∧ (busRead 0x6000 (wr [(0x6000, 0xAB)] State.reset)).1 = 0xAB ∧
    (wr [(0x8000, 0x12)] State.reset).cart = Cart.blank ∧ (wr [(0x8000, 0x12)] State.reset).busLatch = 0x12 := by decide

/-- M2: an unmapped read gives the latch, which holds the high operand byte. -/
theorem test_m2_open_bus :
    ran (machine (cpu 0 0 0 0xFD 0x0300 0) [] [0xAD, 0x18, 0x40]) = some (cpu 0x40 0 0 0xFD 0x0303 0, 4, []) := by decide

theorem test_m3_mapper0 : Cart.blank.mapCpu 0xC123 = 0x0123 ∧ Cart.blank.mapCpu 0x8123 = 0x0123 := by decide

/-- A mapper 2 cartridge of four PRG banks. -/
def cart2 : Cart := { Cart.blank with mapper := .m2, prgBanks := 4 }

/-- A mapper 3 cartridge of two CHR banks. -/
def cart3 : Cart := { Cart.blank with mapper := .m3, prgBanks := 2, chrBanks := 2, chr := [(0x2010, 0x77)] }

theorem test_m4_m5_m6_m10_mapper2 :
    let s := { State.reset with cart := cart2 }
    let t := wr [(0x8000, 0x02)] s
    cart2.mapCpu 0x8000 = 0x00000 ∧ cart2.mapCpu 0xC000 = 0x0C000 ∧ t.cart.mapCpu 0x8000 = 0x08000 ∧
    t.cart.mapCpu 0xC000 = 0x0C000 ∧ (wr [(0xFFFF, 0x05)] s).cart.mapCpu 0x8000 = 0x04000 ∧
    (resetOp t).cart = cart2 := by decide

theorem test_m7_mapper3 :
    let s := wr [(0x8000, 0x01)] { State.reset with cart := cart3 }
    ppuRead s.cart s.ppu 0x0010 = 0x77 ∧ ppuRead cart3 s.ppu 0x0010 = 0 := by decide

/-- A header: magic, banks, flags 6 and 7, padding. -/
def header (prg chr f6 f7 : Byte) : List Byte := [0x4E, 0x45, 0x53, 0x1A, prg, chr, f6, f7, 0, 0, 0, 0, 0, 0, 0, 0]

/-- The error a load names, if it fails. -/
def loadError (img : List Byte) : Option LoadError :=
  match loadCart img with
  | .ok _ => none
  | .error e => some e

theorem test_l1_l2_l4_l5_load_errors :
    loadError (header 0 0 0 0) = some .badSize ∧ loadError [0x4E, 0x45, 0x53, 0x00] = some .badMagic ∧
    loadError (header 1 0 0x04 0) = some .unsupportedTrainer ∧ loadError (header 1 1 0 0) = some .truncated := by decide

/-- L3 and L6: the mapper is named; mapper 0 takes one or two PRG banks. -/
theorem test_l3_l6_mapper_errors (prg : List Byte) (h : prg.length = 3 * 16384) :
    loadError (header 1 0 0x10 0 ++ prg) = some (.unsupportedMapper 1) ∧
    loadError (header 3 0 0 0 ++ prg) = some .badSize := by
  constructor <;>
    simp [loadError, loadCart, header, imageByte, imageMapperId, mapperOf, prgBankSize, chrBankSize, bitAt, Mapper.admits,
      h]

/-- L7: the image loads as mapper 0, vertical mirroring, CHR RAM. -/
theorem test_l7_loads (prg : List Byte) (h : prg.length = 16384) :
    ∃ c, loadCart (header 1 0 0x01 0 ++ prg) = .ok c ∧ c.mapper = .m0 ∧ c.mirroring = .vertical ∧ c.chrIsRam = true := by
  refine ⟨cartOfImage (header 1 0 0x01 0 ++ prg) .m0 1 0, ?_, rfl, ?_, rfl⟩
  · simp [loadCart, header, imageByte, imageMapperId, mapperOf, prgBankSize, chrBankSize, bitAt, Mapper.admits, h]
  · simp [cartOfImage, header, imageByte, bitAt]

/-! ### Witnesses: what each statement assumes can be met, at the boundary of each clause -/

/-- A cartridge with listed bytes in every memory. -/
def demoCart : Cart := { Cart.blank with prgRom := [(0, 0xEA), (0x3FFD, 0x80)], chr := [(0x1FFF, 1)], prgRam := [(0, 2)] }

/-- A machine in use: bytes in every memory, a device latch of every kind set, an instruction next. -/
def demo : State :=
  { State.reset with
    regs := cpu 0x12 0x34 0x56 0x00 0x8000 0b110001
    ram := [(0x10, 0xFF), (0x1FF, 0x80)]
    cart := demoCart
    ppu :=
      { State.reset.ppu with
        vblank := true, v := 0x2108, w := true, scanline := 261, dot := 340, oddFrame := true, vram := [(0x108, 0x55)],
        palette := [(0, 0x2C)], oam := [(2, 0xE3)], fb := [(61439, 0x1FF)] }
    apu := (wr [(0x4015, 0x1F), (0x4003, 0x08), (0x4013, 0xFF)] State.reset).apu
    pads := { strobe := true, shift1 := 1, shift2 := 0, index1 := 0, index2 := 0 } }

theorem demoCart_ok : demoCart.Ok := by constructor <;> decide

theorem cart2_ok : cart2.Ok := by constructor <;> decide

theorem cart3_ok : cart3.Ok := by constructor <;> decide

/-- The mapper 2 and 3 cartridges with their last bank selected. -/
theorem cart23_selected_ok : ({ cart2 with prgSel := 3 }).Ok ∧ ({ cart3 with chrSel := 1 }).Ok := by
  constructor <;> constructor <;> decide

theorem demo_ppu_ok : demo.ppu.MemOk := by constructor <;> decide

/-- Of PushInstructions, StoresWriteTheirRegister, IncrementAndDecrementMemory, ShiftsAndRotates, SubroutineInstructions,
BreakAndReturn, InterruptEntrySavesAndVectors, ReturnsResumeTheCaller, BusWriteByRegion and OamDmaCopiesAPage. -/
theorem witness_memOk : demo.MemOk := ⟨by decide, demoCart_ok, demo_ppu_ok⟩

theorem demo_ranges : demo.ppu.RangeOk ∧ demo.apu.RangeOk ∧ demo.pads.RangeOk := by
  refine ⟨by constructor <;> decide, ?_, by unfold Pads.RangeOk; decide⟩
  constructor <;> (try unfold LengthOk) <;> decide

/-- Of StepKeepsMemoriesInOrder, StepKeepsDevicesInRange and StepCountsItsCycles: a step that completes, and a step that
raises the fault, both from states that meet the invariants. -/
theorem witness_StepKeeps :
    demo.MemOk ∧ demo.DevicesOk ∧ demo.FaultOk ∧
    (match step demo with
      | .next t => t.ctl.fault == none && t.ctl.cyclesTotal == 9
      | _ => false) = true ∧
    (match step { demo with cart := { demoCart with prgRom := [(0, 0x02)] } } with
      | .next t => t.ctl.fault == some { op := 0x02, addr := 0x8000 }
      | _ => false) = true :=
  ⟨witness_memOk, ⟨demo_ranges.1, demo_ranges.2.1, demo_ranges.2.2⟩, fun f h => absurd (show none = some f from h) nofun, by decide,
    by decide⟩

theorem witness_DecodedBytesAreTheEncoding : decode [0xAD, 0x34, 0x12, 0xEA] = .ok (.ldaAbs 0x1234, [0xEA]) := rfl

/-- One, two and three bytes, the last two crossing from one region of storage into another. -/
theorem witness_StepRunsDecodedInstruction :
    let s1 := console [0xEA] []
    let s2 := machine (cpu 0 0 0 0xFD 0x7FFF 0) [] [0xA9, 0x80]
    let s3 := machine (cpu 0 0 0 0xFD 0xFFFE 0) [] [0xAD, 0x34, 0x12]
    s1.poll = .instruction ∧ decode (fetchSeq 1 s1.startStep).1 = .ok (.nop, []) ∧
    s2.poll = .instruction ∧ decode (fetchSeq 2 s2.startStep).1 = .ok (.ldaImm 0x80, []) ∧
    s3.poll = .instruction ∧ decode (fetchSeq 3 s3.startStep).1 = .ok (.ldaAbs 0x1234, []) := by
  refine ⟨by decide, rfl, by decide, rfl, by decide, rfl⟩

theorem witness_FetchedBytesAreMemory :
    (∀ j, j < 3 → isStorage ((0x1FFD : Word) + BitVec.ofNat 16 j) = true) ∧
    (∀ j, j < 3 → isStorage ((0x6000 : Word) + BitVec.ofNat 16 j) = true) ∧
    (∀ j, j < 3 → isStorage ((0xFFFF : Word) + BitVec.ofNat 16 j) = true) ∧
    isStorage 0x2000 = false ∧ isStorage 0x5FFF = false := by decide

/-- The rows each statement about instructions runs over are the 115 of the table that have a data operand. -/
theorem witness_rows :
    ([ldaRows 0 0, ldxRows 0 0, ldyRows 0 0, adcRows 0 0, sbcRows 0 0, andRows 0 0, oraRows 0 0, eorRows 0 0, cmpRows 0 0,
        cpxRows 0 0, cpyRows 0 0, bitRows 0 0].map List.length) = [8, 5, 5, 8, 8, 8, 8, 8, 8, 3, 3, 2] ∧
    ([staRows 0 0, stxRows 0 0, styRows 0 0].map List.length) = [7, 3, 3] ∧
    ([incRows 0 0, decRows 0 0, aslRows 0 0, lsrRows 0 0, rolRows 0 0, rorRows 0 0].map List.length) = [4, 4, 4, 4, 4, 4] := by
  decide

/-- Every branch is taken on one of these flag settings and not on the other. -/
theorem witness_BranchesFollowTheirFlag :
    let no := (cpu 0 0 0 0 0x03FE 0).p
    let yes := (cpu 0 0 0 0 0x0300 0b111111).p
    [!no.c, no.c, no.z, !no.z, no.n, !no.n, !no.v, no.v] = [true, false, false, true, false, true, true, false] ∧
    [!yes.c, yes.c, yes.z, !yes.z, yes.n, !yes.n, !yes.v, yes.v] = [false, true, true, false, true, false, false, true] := by
  decide

theorem witness_JumpsLoadPc :
    isStorage 0x02FF = true ∧ isStorage 0x0200 = true ∧ isStorage 0xFFFF = true ∧ isStorage 0xFF00 = true ∧
    isStorage 0x1FFF = true ∧ isStorage 0x1F00 = true := by decide

theorem witness_PollingOrder :
    (demo.raise { op := 0x02, addr := 0x8000 }).poll = .faulted { op := 0x02, addr := 0x8000 } ∧
    ({ demo with ctl := { demo.ctl with nmiPending := true } }).poll = .nmi ∧
    ({ demo with inputs := { demo.inputs with extIrq := true } }).poll = .irq ∧
    ({ State.reset with inputs := { State.reset.inputs with extIrq := true } }).poll = .instruction ∧
    demo.poll = .instruction := by decide

/-- In ROM, and at an unmapped address, where the byte is the bus latch. -/
theorem witness_IllegalOpcodeFaults :
    let s := console [0xFF] []
    let u := { State.reset with busLatch := 0x02, regs := cpu 0 0 0 0xFD 0x4018 0 }
    s.poll = .instruction ∧ (s.peek s.regs.pc).toNat ∈ illegalOpcodes ∧ u.poll = .instruction ∧
    (u.peek u.regs.pc).toNat ∈ illegalOpcodes := by decide

/-- Of BusReadByRegion, BusWriteByRegion and `StoredAt`: the first and the last address of every region. -/
theorem witness_regions :
    ([0x0000, 0x1FFF, 0x2000, 0x3FFF, 0x4000, 0x4013, 0x4014, 0x4015, 0x4016, 0x4017, 0x4018, 0x401F, 0x4020, 0xFFFF].map
      regionOf) =
    [.ram, .ram, .ppuReg 0, .ppuReg 7, .apuReg 0, .apuReg 0x13, .oamDma, .apuStatus, .pad1, .pad2, .unused, .unused, .cart,
      .cart] ∧
    demoCart.read 0x77 0x5FFF = 0x77 ∧ demoCart.read 0x77 0x6000 = 2 ∧ demoCart.read 0x77 0x7FFF = 0 ∧
    demoCart.read 0x77 0x8000 = 0xEA := by decide

theorem witness_RamMirrorsNameOneByte :
    let t := busWrite 0x1FFF 0x5A demo
    (0x1FFF : Word).toNat < 0x2000 ∧ (busRead 0x07FF t).1 = 0x5A ∧ (busRead 0x0010 t).1 = 0xFF := by decide

theorem witness_PpuRegisterMirrors :
    (0x2007 : Word).toNat = 0x2000 + (0x3FFF : Word).toNat % 8 ∧ (0x2000 : Word).toNat = 0x2000 + (0x2000 : Word).toNat % 8 := by
  decide

/-- One cartridge of each mapper; the first and the last address of each window. -/
theorem witness_BankSelectMovesOneWindow :
    (demoCart.Ok ∧ demoCart.mapper = .m0) ∧ (cart2.Ok ∧ cart2.mapper = .m2) ∧ (cart3.Ok ∧ cart3.mapper = .m3) ∧
    (cart2.onCpuWrite 0xFF).mapCpu 0xBFFF = 3 * 16384 + 0x3FFF ∧ (cart2.onCpuWrite 0xFF).mapCpu 0xC000 = 3 * 16384 ∧
    (cart3.onCpuWrite 0xFF).mapPpu 0x1FFF = 8192 + 0x1FFF :=
  ⟨⟨demoCart_ok, rfl⟩, ⟨cart2_ok, rfl⟩, ⟨cart3_ok, rfl⟩, by decide, by decide, by decide⟩

theorem witness_PushAndPull :
    demo.regs.sp = 0 ∧ (push 0x5A demo).peek 0x0100 = 0x5A ∧ (demo.setSp 0xFF).regs.sp = 0xFF ∧
    (pull (demo.setSp 0xFF)).2.regs.sp = 0 := by decide

theorem witness_NametableMirroring :
    vramIndex .horizontal 0x2000 = 0 ∧ vramIndex .horizontal 0x3EFF = 0x6FF ∧ vramIndex .vertical 0x3EFF = 0x6FF ∧
    vramIndex .horizontal 0x27FF = 0x3FF ∧ vramIndex .vertical 0x27FF = 0x7FF ∧ vramIndex .vertical 0x3000 = 0 := by decide

theorem witness_ScrollAndAddressWrites : State.reset.ppu.w = false ∧ demo.ppu.w = true := by decide

theorem witness_StatusReadClearsVblankAndToggle :
    (0x2002 : Word).toNat % 8 = 2 ∧ (0x3FFA : Word).toNat < 0x4000 ∧ (0x3FFA : Word).toNat % 8 = 2 := by decide

/-- The last CHR address, the first and the last nametable address, the first and the last palette address. -/
theorem witness_DataPortReadsAndWrites :
    demoCart.Ok ∧ (∀ v : BitVec 15, ({ demo.ppu with v := v }).MemOk) ∧
    ([0x1FFF, 0x2000, 0x3EFF, 0x3F00, 0x3FFF, 0x7FFF].map fun v : BitVec 15 => ({ demo.ppu with v := v }).dataAddr) =
      [0x1FFF, 0x2000, 0x3EFF, 0x3F00, 0x3FFF, 0x3FFF] :=
  ⟨demoCart_ok, fun _ => ⟨demo_ppu_ok.vram, demo_ppu_ok.palette, demo_ppu_ok.oam, demo_ppu_ok.fb, demo_ppu_ok.attr⟩, by decide⟩

/-- The last cell of each memory and its neighbour; the mirrors of a palette entry and of a nametable byte. -/
theorem witness_SamePpuCell :
    ¬ SamePpuCell demoCart 0x1FFF 0x1FFE ∧ ¬ SamePpuCell demoCart 0x1FFF 0x2000 ∧ SamePpuCell demoCart 0x2000 0x2400 ∧
    ¬ SamePpuCell demoCart 0x2000 0x2800 ∧ ¬ SamePpuCell demoCart 0x3EFF 0x3F00 ∧ SamePpuCell demoCart 0x3F10 0x3F00 ∧
    ¬ SamePpuCell demoCart 0x3F11 0x3F01 := by
  unfold SamePpuCell
  refine ⟨?_, ?_, ?_, ?_, ?_, ?_, ?_⟩ <;> decide

/-- The first and the last address of each window whose reads touch a device, and their neighbours. -/
theorem witness_readsDevice :
    ([0x1FFF, 0x2000, 0x3FFF, 0x4000, 0x4014, 0x4015, 0x4017, 0x4018, 0xFFFF].map readsDevice) =
      [false, true, true, false, false, true, true, false, false] ∧
    (ReadOp.imm 0).readsDevice demo = false ∧ (ReadOp.mem (.abs 0x2002)).readsDevice demo = true := by decide

/-- The pages OAM DMA copies from storage: the last of RAM, the first and the last of the cartridge. -/
theorem witness_OamDmaCopiesAPage :
    isStorage (wordOf 0x1F 0xFF) = true ∧ isStorage (wordOf 0x60 0x00) = true ∧ isStorage (wordOf 0xFF 0xFF) = true := by decide

/-- Coarse X 31 and 30; fine Y 6 and 7; coarse Y 29, 30 and 31 (61_ppu.md R851, R852). -/
theorem witness_ScrollIncrementsAndCopies :
    incCoarseX 0x001F = 0x0400 ∧ incCoarseX 0x001E = 0x001F ∧ incY 0x6000 = 0x7000 ∧ incY 0x73A0 = 0x0800 ∧
    incY 0x73C0 = 0x03E0 ∧ incY 0x73E0 = 0x0000 := by decide

/-- The last dot of a frame, and the skipped one. -/
theorem witness_RasterAdvancesOneDot :
    demo.ppu.RangeOk ∧ demo.ppu.position = 89341 ∧ ({ demo.ppu with dot := 339, mask := 0x08 }).RangeOk ∧
    ({ demo.ppu with dot := 339, mask := 0x08 }).skipsDot = true ∧ ({ demo.ppu with dot := 339, mask := 0 }).skipsDot = false :=
  ⟨demo_ranges.1, by decide, by constructor <;> decide, by decide, by decide⟩

theorem witness_VblankAndNmiLatch :
    let at_ := fun l d => ppuTick { demo with ppu := { demo.ppu with scanline := l, dot := d, vblank := false, ctrl := 0x80 } }
    (at_ 241 1).ppu.vblank = true ∧ (at_ 241 1).ctl.nmiPending = true ∧ (at_ 241 0).ppu.vblank = false ∧
    (at_ 261 1).ppu.vblank = false ∧ (at_ 241 2).ppu.vblank = false := by decide

/-- OAM of all zeros: every sprite covers line 7, none covers line 8. -/
theorem witness_SpriteEvaluationChoosesEight :
    let p := State.reset.ppu
    (p.spriteScan 7).count = 8 ∧ (p.spriteScan 7).overflow = true ∧ (p.spriteScan 8).count = 0 := by decide

theorem witness_ChannelEnableAndStatus :
    State.reset.apu.dmc.bytesRemaining = 0 ∧ demo.apu.dmc.bytesRemaining ≠ 0 ∧ (0x10 : Byte).getLsbD 4 = true ∧
    (0x0F : Byte).getLsbD 4 = false := by decide

theorem witness_FrameSequencerSteps :
    let four := fun k => ({ Apu.reset with fs := { fiveStep := false, irqInhibit := true, cycle := k } }).frameStep
    let five := fun k => ({ Apu.reset with fs := { fiveStep := true, irqInhibit := false, cycle := k } }).frameStep
    (four 29828).fs.cycle = 0 ∧ (four 29828).frameIrq = false ∧ (four 7456).fs.cycle = 7457 ∧ (four 0).fs.cycle = 1 ∧
    (five 37280).fs.cycle = 0 ∧ (five 29828).fs.cycle = 29829 ∧ (five 22370).fs.cycle = 22371 := by decide

theorem witness_EnvelopeAndNoiseClocks :
    (Envelope.mk true 0 0).start = true ∧ (Envelope.mk false 0 0).divider = 0 ∧ (Envelope.mk false 1 0).divider ≠ 0 ∧
    Noise.reset.timer = 0 ∧ ({ Noise.reset with timer := 5 }).timer ≠ 0 := by decide

/-- A full buffer; an empty one with the last byte, looping and not, and with more; the address at its wrap. -/
theorem witness_DmcReaderFetchesBytes :
    let m := { Dmc.reset with bytesRemaining := 1, curAddr := 0xFFFF, sampleAddr := 0xC040, sampleLen := 17 }
    let run := fun d => (dmcReader 9 { State.reset with apu := { Apu.reset with dmc := d } }).apu.dmc
    (run { m with bufferFull := true }).curAddr = 0xFFFF ∧ (run m).bytesRemaining = 0 ∧
    (run { m with loop := true }).curAddr = 0xC040 ∧ (run { m with bytesRemaining := 2 }).curAddr = 0x8000 := by decide

theorem witness_MixerIsNonlinearSum : 0 < 1 + 0 ∧ 0 < 0 + 0 + 1 ∧ 15 + 0 = 7 + 8 := by decide

theorem witness_ControllerReadsWrap :
    demo.pads.RangeOk ∧ demo.pads.strobe = true ∧ State.reset.pads.strobe = false ∧ (0x01 : Byte).getLsbD 0 = true ∧
    (0xFE : Byte).getLsbD 0 = false := by
  refine ⟨demo_ranges.2.2, by decide⟩

/-- Of ResetMachinesMeetTheInvariants and LoadAcceptsExactlyValidImages: an image that loads. -/
theorem witness_LoadAcceptsExactlyValidImages : ∃ img s, loadImage img = .ok s := by
  obtain ⟨c, h, _⟩ := test_l7_loads (List.replicate 16384 0) (List.length_replicate ..)
  refine ⟨header 1 0 0x01 0 ++ List.replicate 16384 0, State.powerOn c, ?_⟩
  simp only [loadImage, h]

/-- The mapper ids 0, 2 and 3 in the two flag bytes. -/
theorem witness_mapperIds :
    ([[(0x00 : Byte), 0x00], [0x20, 0x00], [0x30, 0x00], [0x00, 0x10]].map fun f =>
      mapperOf (imageMapperId ([0x4E, 0x45, 0x53, 0x1A, 1, 1] ++ f))) = [some .m0, some .m2, some .m3, none] := by decide

/-- Rendering off, and rendering on at the dot before the skip of an odd frame. -/
theorem witness_StepTicksThreeDotsACycle :
    demo.ppu.RangeOk ∧ demo.ppu.mask.getLsbD 3 = false ∧ demo.ppu.mask.getLsbD 4 = false ∧
    ({ demo.ppu with dot := 338, mask := 0x08 }).RangeOk ∧
    (({ demo.ppu with dot := 338, mask := 0x08 }).tick demoCart).skipsDot = true :=
  ⟨demo_ranges.1, by decide, by decide, by constructor <;> decide, by decide⟩

/-- At `4C 00 80`: an end; with the NMI enabled, an NMI pending, or IRQs unmasked: a wait; with a fault: neither; at the last
address of RAM, of PRG RAM and at $FFFF too. -/
theorem witness_NormalEndStays :
    let s := console [0x4C, 0x00, 0x80] []
    let t := { s with ppu := { s.ppu with ctrl := 0x80 } }
    let u := { s with ctl := { s.ctl with nmiPending := true } }
    let v := { s with regs := { s.regs with p := { s.regs.p with i := false } }, inputs := { s.inputs with extIrq := true } }
    s.runStatus = .normalEnd ∧ t.runStatus = .waiting ∧ u.runStatus = .waiting ∧ v.runStatus = .waiting ∧
    v.irqLine = true ∧ (console [0xEA] []).runStatus = .running ∧
    (s.raise { op := 0x02, addr := 0x8000 }).runStatus = .errorEnd { op := 0x02, addr := 0x8000 } ∧
    (machine (cpu 0 0 0 0xFD 0x7FFE 0b000100) [] [0x4C, 0xFE, 0x7F]).runStatus = .normalEnd ∧
    (machine (cpu 0 0 0 0xFD 0xFFFF 0b000100) [] [0x4C, 0xFF, 0xFF]).runStatus = .normalEnd ∧
    isStorage 0xFFFF = true ∧ isStorage (0xFFFF + 1) = true ∧ isStorage (0xFFFF + 2) = true := by decide

end Sys2Proof.Tests
end

section
/-! Fetching from storage: one fetch, then a run of fetches, and the statement about them. -/

namespace Sys2Proof.Machine

/-! ### A run of storage addresses -/

/-- The `k` addresses from `a` on, modulo 65536, are addresses of storage. -/
def StorageFrom (k : Nat) (a : Word) : Prop := ∀ j, j < k → isStorage (a + BitVec.ofNat 16 j) = true

theorem Word.add_ofNat_succ (a : Word) (j : Nat) : a + BitVec.ofNat 16 (j + 1) = a + 1 + BitVec.ofNat 16 j := by
  apply BitVec.eq_of_toNat_eq
  simp
  omega

theorem StorageFrom.head {k : Nat} {a : Word} (h : StorageFrom (k + 1) a) : isStorage a = true := by
  simpa using h 0 (Nat.succ_pos k)

theorem StorageFrom.tail {k : Nat} {a : Word} (h : StorageFrom (k + 1) a) : StorageFrom k (a + 1) := fun j hj => by
  simpa only [Word.add_ofNat_succ] using h (j + 1) (Nat.succ_lt_succ hj)

/-! ### One fetch -/

@[simp] theorem fetch_fst (s : State) : (fetch s).1 = s.peek s.regs.pc := rfl

@[simp] theorem fetch_regs (s : State) : (fetch s).2.regs = { s.regs with pc := s.regs.pc + 1 } := by simp [fetch]

theorem fetch_trace (s : State) :
    (fetch s).2.trace = s.event .read s.regs.pc (s.peek s.regs.pc) :: s.trace := busRead_trace s.regs.pc s

/-- A fetch from storage moves PC, sets the bus latch and delivers one event (R14, R273). -/
theorem fetch_storage {s : State} (h : isStorage s.regs.pc = true) :
    (fetch s).2 =
      { s with
        regs := { s.regs with pc := s.regs.pc + 1 }
        busLatch := s.peek s.regs.pc
        trace := s.event .read s.regs.pc (s.peek s.regs.pc) :: s.trace } := by
  have hpc : s.regs.pc.toNat < 0x2000 ∨ 0x6000 ≤ s.regs.pc.toNat := by simpa [isStorage] using h
  show (busRead s.regs.pc s).2.setPc ((busRead s.regs.pc s).2.regs.pc + 1) = _
  rw [busRead_storage (by omega)]
  rfl

/-- A fetch, of a device register too, only reads: it adds to the read no more than the change of PC. -/
theorem OnlyReads.fetch (s : State) : OnlyReads s (Machine.fetch s).2 := by
  obtain ⟨hctl, hram, hcart, hppu, hapu, hpads, hinputs⟩ := OnlyReads.busRead s.regs.pc s
  exact ⟨hctl, hram, hcart, hppu, hapu, hpads, hinputs⟩

/-! ### A run of fetches -/

/-- Each fetch delivers one event, wherever it reads. -/
theorem fetchSeq_trace_length (k : Nat) (s : State) : (fetchSeq k s).2.trace.length = s.trace.length + k := by
  induction k generalizing s with
  | zero => rfl
  | succ k ih =>
    have hhead : (fetch s).2.trace.length = s.trace.length + 1 := by rw [fetch_trace, List.length_cons]
    show (fetchSeq k (fetch s).2).2.trace.length = _
    rw [ih, hhead]
    omega

/-- The bytes fetched from storage are those that stood there before the first fetch. -/
theorem fetchSeq_bytes {k : Nat} {s : State} (h : StorageFrom k s.regs.pc) :
    (fetchSeq k s).1 = (List.range k).map fun j => s.peek (s.regs.pc + BitVec.ofNat 16 j) := by
  induction k generalizing s with
  | zero => rfl
  | succ k ih =>
    have hrest : (fetchSeq k (fetch s).2).1 =
        (List.range k).map fun j => s.peek (s.regs.pc + BitVec.ofNat 16 (j + 1)) := by
      rw [ih (by simpa using h.tail)]
      refine List.map_congr_left fun j hj => ?_
      rw [fetch_regs, ← Word.add_ofNat_succ]
      exact (OnlyReads.fetch s).peek (h (j + 1) (Nat.succ_lt_succ (List.mem_range.mp hj)))
    simp [fetchSeq, hrest, List.range_succ_eq_map, Function.comp_def]

/-- Fetches from storage change nothing but PC, the bus latch and the trace. -/
theorem fetchSeq_storage {k : Nat} {s : State} (h : StorageFrom k s.regs.pc) :
    (fetchSeq k s).2 =
      { s with
        regs := { s.regs with pc := s.regs.pc + BitVec.ofNat 16 k }
        busLatch := (fetchSeq k s).2.busLatch
        trace := (fetchSeq k s).2.trace } := by
  induction k generalizing s with
  | zero => simp [fetchSeq]
  | succ k ih =>
    have hrest := ih (s := (fetch s).2) (by simpa using h.tail)
    rw [Word.add_ofNat_succ]
    simpa only [fetchSeq, fetch_storage h.head] using hrest

end Sys2Proof.Machine

namespace Sys2Proof

open Sys2Proof.Machine

/-- Settles O6: the bytes, the state and the events of a run of fetches, each by induction on the number of fetches. -/
theorem fetchedBytesAreMemory : Obligations.FetchedBytesAreMemory := by
  intro k s h
  refine ⟨fetchSeq_bytes h, ?_⟩
  rw [fetchSeq_storage (s := s) h]
  exact ⟨rfl, rfl, rfl, rfl, rfl, rfl, rfl, rfl, fetchSeq_trace_length k s⟩

end Sys2Proof
end

section
/-! The status byte: its bits, its value, and the flags a byte loads (10_state.md R110 to R112). -/

namespace Sys2Proof.Machine

/-! ### The pushed byte -/

/-- The layout of R111, with the bits appended one by one: the library's `concat` lemmas speak of it. -/
theorem Flags.pushed_eq_concat (p : Flags) (b : Bool) :
    p.pushed b =
      (((((((BitVec.ofBool p.n).concat p.v).concat true).concat b).concat p.d).concat p.i).concat p.z).concat p.c := rfl

theorem boolNat_eq_toNat (b : Bool) : boolNat b = b.toNat := by cases b <;> rfl

theorem Flags.pushed_toNat (p : Flags) (b : Bool) :
    (p.pushed b).toNat = 128 * boolNat p.n + 64 * boolNat p.v + 32 + 16 * boolNat b + 8 * boolNat p.d + 4 * boolNat p.i +
      2 * boolNat p.z + boolNat p.c := by
  simp only [Flags.pushed_eq_concat, BitVec.toNat_concat, BitVec.toNat_ofBool, boolNat_eq_toNat, Bool.toNat_true]
  omega

/-- Bit 0 first: C, Z, I, D, the given B, 1, V, N. -/
theorem Flags.bitAt_pushed (p : Flags) (b : Bool) {i : Nat} (hi : i < 8) :
    bitAt (p.pushed b) i = [p.c, p.z, p.i, p.d, b, true, p.v, p.n].getD i false := by
  have htop : (BitVec.ofBool p.n).getLsbD 0 = p.n := by simp
  interval_cases i <;>
    simp only [bitAt, Flags.pushed_eq_concat, BitVec.getLsbD_concat_zero, BitVec.getLsbD_concat_succ, htop,
      List.getD_cons_zero, List.getD_cons_succ]

/-! ### Loading a byte -/

theorem Flags.ofByte_pushed (p : Flags) (b : Bool) : Flags.ofByte (p.pushed b) = p := by
  simp [Flags.ofByte, Flags.bitAt_pushed]

theorem bitAt_eq_decide {n : Nat} (v : BitVec n) (i : Nat) : bitAt v i = decide (v.toNat / 2 ^ i % 2 = 1) :=
  Nat.testBit_eq_decide_div_mod_eq

theorem Flags.ofByte_eq_flagBits (v : Byte) : Flags.ofByte v = flagBits v := by
  have htop : v.toNat / 128 % 2 = v.toNat / 128 := by have := v.isLt; omega
  simp [Flags.ofByte, flagBits, bitAt_eq_decide, htop]

/-- Of a loaded byte, bits 5 and 4 are lost: pushing it gives bit 5 set and `b` in bit 4 (R111, R112). -/
theorem Flags.pushed_ofByte (v : Byte) (b : Bool) :
    (Flags.ofByte v).pushed b = (v &&& 0xCF) ||| 0x20 ||| (if b then 0x10 else 0) := by
  refine BitVec.eq_of_getLsbD_eq fun i hi => ?_
  rw [← bitAt, Flags.bitAt_pushed _ _ hi]
  cases b <;> interval_cases i <;> simp [Flags.ofByte, bitAt]

end Sys2Proof.Machine

namespace Sys2Proof

open Sys2Proof.Machine

/-- Settles O7: the value and the bits of the pushed byte, and the two round trips bit by bit. -/
theorem statusByteRoundTrip : Obligations.StatusByteRoundTrip :=
  ⟨Flags.pushed_toNat, Flags.ofByte_pushed, Flags.ofByte_eq_flagBits, Flags.pushed_ofByte⟩

end Sys2Proof
end

section
/-! The stack operations as bus transactions of page $01: their addresses, the wrap of S, and a pull after a push
(10_state.md R125, R130, R131). -/

namespace Sys2Proof.Machine

/-! ### The stack pointer and its address in numbers -/

theorem stackAddr_eq_ofNat (sp : Byte) : stackAddr sp = BitVec.ofNat 16 (0x100 + sp.toNat) := by
  apply BitVec.eq_of_toNat_eq
  have := sp.isLt
  rw [stackAddr_toNat, BitVec.toNat_ofNat]
  omega

theorem Byte.sub_one_eq_ofNat (b : Byte) : b - 1 = BitVec.ofNat 8 (b.toNat + 255) := by bv_omega

theorem Byte.add_one_eq_ofNat (b : Byte) : b + 1 = BitVec.ofNat 8 (b.toNat + 1) := by bv_omega

theorem stackAddr_lt (sp : Byte) : (stackAddr sp).toNat < 0x2000 := by
  have := sp.isLt
  rw [stackAddr_toNat]
  omega

theorem peek_stackAddr (s : State) (sp : Byte) : s.peek (stackAddr sp) = Store.read s.ram (256 + sp.toNat) := by
  have := sp.isLt
  rw [State.peek_ram (stackAddr_lt sp), stackAddr_toNat, Nat.mod_eq_of_lt (by omega)]

/-! ### Push -/

@[simp] theorem push_regs (v : Byte) (s : State) : (push v s).regs = { s.regs with sp := s.regs.sp - 1 } := by
  rw [push_eq]

theorem push_eq_busWrite (v : Byte) (s : State) :
    push v s = { busWrite (stackAddr s.regs.sp) v s with regs := { s.regs with sp := s.regs.sp - 1 } } := by
  rw [push, State.setSp, busWrite_ram (stackAddr_lt _)]

/-- In a canonical RAM the pushed byte stands at the stack address S had. -/
theorem push_peek {s : State} (h : Store.Wf s.ram) (v : Byte) : (push v s).peek (stackAddr s.regs.sp) = v := by
  rw [peek_stackAddr, push_eq]
  exact Store.read_write_self h _ v

/-! ### Pull -/

theorem pull_fst (s : State) : (pull s).1 = s.peek (stackAddr (s.regs.sp + 1)) := by rw [peek_stackAddr, pull_eq]

@[simp] theorem pull_regs (s : State) : (pull s).2.regs = { s.regs with sp := s.regs.sp + 1 } := by rw [pull_eq]

theorem pull_snd_eq_busRead (s : State) :
    (pull s).2 = { (busRead (stackAddr (s.regs.sp + 1)) s).2 with regs := { s.regs with sp := s.regs.sp + 1 } } := by
  rw [busRead_storage (.inl (stackAddr_lt _)), ← pull_fst, pull_eq]

/-! ### A pull after a push -/

theorem pull_push_fst {s : State} (h : Store.Wf s.ram) (v : Byte) : (pull (push v s)).1 = v := by
  rw [pull_fst, push_regs, BitVec.sub_add_cancel]
  exact push_peek h v

theorem pull_push_regs (v : Byte) (s : State) : (pull (push v s)).2.regs = s.regs := by
  rw [pull_regs, push_regs, BitVec.sub_add_cancel]

end Sys2Proof.Machine

namespace Sys2Proof

open Sys2Proof.Machine

/-- Settles O37: each stack operation is its bus transaction and a step of S modulo 256; the wraps are the cases S = $00 and
S = $FF. -/
theorem pushAndPull : Obligations.PushAndPull := by
  intro s v hs
  obtain ⟨hram, -⟩ := hs.ram
  simp only [← stackAddr_eq_ofNat, ← Byte.sub_one_eq_ofNat, ← Byte.add_one_eq_ofNat]
  refine ⟨push_eq_busWrite v s, push_peek hram v, fun h => ?_, pull_fst s, pull_snd_eq_busRead s, fun h => ?_,
    pull_push_fst hram v, pull_push_regs v s⟩
  · have hpeek := push_peek hram v
    rw [h] at hpeek
    exact ⟨hpeek, by rw [push_regs, h]; rfl⟩
  · exact ⟨by rw [pull_fst, h]; rfl, by rw [pull_regs, h]; rfl⟩

end Sys2Proof
end

section
/-! Every step keeps the memories in order: `State.MemOk` is kept by each primitive update of the CPU step and of the tick loop
(20_memory.md R225, R228, R242 to R244; 61_ppu.md R880). -/

namespace Sys2Proof.Machine

/-! ### One PPU tick: of the PPU's memories it writes only the frame buffer -/

theorem Ppu.MemOk.vblankWork {p : Ppu} (h : p.MemOk) : p.vblankWork.MemOk := by
  unfold Ppu.vblankWork
  repeat' split
  all_goals exact h.congr rfl rfl rfl rfl

theorem Ppu.MemOk.bgWork {p : Ppu} (h : p.MemOk) (c : Cart) : (p.bgWork c).MemOk := by
  unfold Ppu.bgWork Ppu.fetchStep
  repeat' split
  all_goals exact h.congr rfl rfl rfl rfl

theorem Ppu.MemOk.scrollWork {p : Ppu} (h : p.MemOk) : p.scrollWork.MemOk := by
  unfold Ppu.scrollWork
  repeat' split
  all_goals exact h.congr rfl rfl rfl rfl

theorem Ppu.MemOk.spriteWork {p : Ppu} (h : p.MemOk) (c : Cart) : (p.spriteWork c).MemOk := by
  unfold Ppu.spriteWork
  repeat' split
  all_goals exact h.congr rfl rfl rfl rfl

theorem Ppu.MemOk.renderWork {p : Ppu} (h : p.MemOk) (c : Cart) : (p.renderWork c).MemOk := by
  unfold Ppu.renderWork
  split
  · exact ((h.bgWork c).scrollWork).spriteWork c
  · exact h

/-- The frame buffer has 240 rows of 256 pixels (R880). -/
theorem fbKey_lt {row col : Nat} (hrow : row < 240) (hcol : col < 256) : fbKey row col < 61440 := by
  unfold fbKey
  omega

/-- The pixel of a visible dot goes into the frame buffer. -/
theorem Ppu.MemOk.pixelWork {p : Ppu} (h : p.MemOk) (c : Cart) : (p.pixelWork c).MemOk := by
  unfold Ppu.pixelWork
  split
  · next hvisible =>
    obtain ⟨hrow, -, hdot⟩ := hvisible
    obtain ⟨hwf, hwithin⟩ := h.fb
    exact ⟨h.vram, h.palette, h.oam,
      ⟨Store.wf_write hwf _ _, Store.within_write hwithin (fbKey_lt hrow (by omega)) _⟩, h.attr⟩
  · exact h

theorem Ppu.MemOk.advance {p : Ppu} (h : p.MemOk) : p.advance.MemOk := by
  unfold Ppu.advance Ppu.nextLine
  repeat' split
  all_goals exact h.congr rfl rfl rfl rfl

theorem Ppu.MemOk.tick {p : Ppu} (h : p.MemOk) (c : Cart) : (p.tick c).MemOk :=
  ((h.vblankWork.renderWork c).pixelWork c).advance

/-! ### The machine -/

/-- The invariant speaks of RAM, the cartridge and the PPU: of the primitive updates only a bus read, a bus write and a PPU
tick reach one of these. -/
theorem State.stepStable_memOk : StepStable State.MemOk where
  regs _ _ h := ⟨h.ram, h.cart, h.ppu⟩
  count _ _ _ h := ⟨h.ram, h.cart, h.ppu⟩
  read _ a h := h.readRegion a
  write _ a v h := h.writeRegion a v
  conclude _ _ _ _ _ h := ⟨h.ram, h.cart, h.ppu⟩
  ctl _ _ h := ⟨h.ram, h.cart, h.ppu⟩
  tick s h := ⟨h.ram, h.cart, h.ppu.tick s.cart⟩
  units _ h := ⟨h.ram, h.cart, h.ppu⟩
  take _ _ _ h := ⟨h.ram, h.cart, h.ppu⟩
  finish _ h := ⟨h.ram, h.cart, h.ppu⟩

end Sys2Proof.Machine

namespace Sys2Proof

open Sys2Proof.Machine

/-- Settles O55: `State.MemOk` is a property every step keeps because the updates a step is made of keep it. -/
theorem stepKeepsMemoriesInOrder : Obligations.StepKeepsMemoriesInOrder :=
  fun _ _ hs hstep => State.stepStable_memOk.step hs hstep

end Sys2Proof
end

section
/-! A bus read region by region (20_memory.md R200, R210 to R217, R226): the read of each device's window, and what a read
leaves alone. -/

namespace Sys2Proof.Machine

/-! ### The windows of the devices -/

theorem regionOf_oamDma {a : Word} (h : a.toNat = 0x4014) : regionOf a = .oamDma := by simp [regionOf, h]

theorem regionOf_apuStatus {a : Word} (h : a.toNat = 0x4015) : regionOf a = .apuStatus := by simp [regionOf, h]

theorem regionOf_pad1 {a : Word} (h : a.toNat = 0x4016) : regionOf a = .pad1 := by simp [regionOf, h]

theorem regionOf_pad2 {a : Word} (h : a.toNat = 0x4017) : regionOf a = .pad2 := by simp [regionOf, h]

/-! ### The read of each window -/

theorem readRegion_ppu {a : Word} {s : State} (h : 0x2000 ≤ a.toNat ∧ a.toNat < 0x4000) :
    readRegion a s =
      ((s.ppu.readReg s.cart (a.toNat % 8)).1, s.setPpu (s.ppu.readReg s.cart (a.toNat % 8)).2) := by
  simp only [readRegion, regionOf_ppu h.1 h.2]

theorem readRegion_apuStatus {a : Word} {s : State} (h : a.toNat = 0x4015) :
    readRegion a s = (s.apu.status s.busLatch, { s with apu := s.apu.afterStatusRead }) := by
  simp only [readRegion, regionOf_apuStatus h]

theorem readRegion_pad1 {a : Word} {s : State} (h : a.toNat = 0x4016) :
    readRegion a s = ((s.pads.read1 s.inputs).1, { s with pads := (s.pads.read1 s.inputs).2 }) := by
  simp only [readRegion, regionOf_pad1 h]

theorem readRegion_pad2 {a : Word} {s : State} (h : a.toNat = 0x4017) :
    readRegion a s = ((s.pads.read2 s.inputs).1, { s with pads := (s.pads.read2 s.inputs).2 }) := by
  simp only [readRegion, regionOf_pad2 h]

/-- A write-only register, an unused address or an unmapped one reads as the bus latch (R214, R215, R217, R226). -/
theorem State.peek_openBus {s : State} {a : Word}
    (h : (0x4000 ≤ a.toNat ∧ a.toNat < 0x4015) ∨ (0x4018 ≤ a.toNat ∧ a.toNat < 0x6000)) : s.peek a = s.busLatch := by
  rcases h with ⟨hlo, hhi⟩ | ⟨hlo, hhi⟩
  · rcases Nat.lt_or_ge a.toNat 0x4014 with hsound | hdma
    · simp only [State.peek, readRegion, regionOf_apu hlo hsound]
    · simp only [State.peek, readRegion, regionOf_oamDma (show a.toNat = 0x4014 by omega)]
  · rcases Nat.lt_or_ge a.toNat 0x4020 with hunused | hcart
    · simp only [State.peek, readRegion, regionOf_unused hlo hunused]
    · simp only [State.peek, readRegion, regionOf_cart hcart, Cart.read, hhi, if_true]

/-! ### What a read leaves alone -/

/-- The device windows are the PPU's registers, $4015, $4016 and $4017. -/
theorem readsDevice_eq_true {a : Word} (h : readsDevice a = true) :
    (0x2000 ≤ a.toNat ∧ a.toNat < 0x4000) ∨ a.toNat = 0x4015 ∨ a.toNat = 0x4016 ∨ a.toNat = 0x4017 := by
  have : (0x2000 ≤ a.toNat ∧ a.toNat < 0x4000) ∨ (0x4015 ≤ a.toNat ∧ a.toNat < 0x4018) := by
    simpa [readsDevice] using h
  omega

/-- What a bus read can do to the devices: nothing, or the side effect of the one window it reads (R205, R213 to R217). -/
theorem busRead_devices (a : Word) (s : State) :
    (readsDevice a = false ∧ SameDevices s (busRead a s).2) ∨
    ((0x2000 ≤ a.toNat ∧ a.toNat < 0x4000) ∧ (busRead a s).2.ppu = (s.ppu.readReg s.cart (a.toNat % 8)).2 ∧
      (busRead a s).2.apu = s.apu ∧ (busRead a s).2.pads = s.pads) ∨
    (a.toNat = 0x4015 ∧ (busRead a s).2.apu = s.apu.afterStatusRead ∧
      (busRead a s).2.ppu = s.ppu ∧ (busRead a s).2.pads = s.pads) ∨
    (a.toNat = 0x4016 ∧ (busRead a s).2.pads = (s.pads.read1 s.inputs).2 ∧
      (busRead a s).2.ppu = s.ppu ∧ (busRead a s).2.apu = s.apu) ∨
    (a.toNat = 0x4017 ∧ (busRead a s).2.pads = (s.pads.read2 s.inputs).2 ∧
      (busRead a s).2.ppu = s.ppu ∧ (busRead a s).2.apu = s.apu) := by
  cases hd : readsDevice a with
  | false => exact .inl ⟨rfl, SameDevices.busRead s hd⟩
  | true =>
    rw [busRead_snd]
    rcases readsDevice_eq_true hd with h | h | h | h
    · rw [readRegion_ppu h]; exact .inr (.inl ⟨h, rfl, rfl, rfl⟩)
    · rw [readRegion_apuStatus h]; exact .inr (.inr (.inl ⟨h, rfl, rfl, rfl⟩))
    · rw [readRegion_pad1 h]; exact .inr (.inr (.inr (.inl ⟨h, rfl, rfl, rfl⟩)))
    · rw [readRegion_pad2 h]; exact .inr (.inr (.inr (.inr ⟨h, rfl, rfl, rfl⟩)))

theorem busRead_ppu_eq {a : Word} (s : State) (h : ¬ (0x2000 ≤ a.toNat ∧ a.toNat < 0x4000)) :
    (busRead a s).2.ppu = s.ppu := by
  rcases busRead_devices a s with ⟨-, hsame⟩ | ⟨hwindow, -⟩ | ⟨-, -, hppu, -⟩ | ⟨-, -, hppu, -⟩ | ⟨-, -, hppu, -⟩
  · exact hsame.ppu
  · exact absurd hwindow h
  all_goals exact hppu

theorem busRead_apu_eq {a : Word} (s : State) (h : a.toNat ≠ 0x4015) : (busRead a s).2.apu = s.apu := by
  rcases busRead_devices a s with ⟨-, hsame⟩ | ⟨-, -, hapu, -⟩ | ⟨hwindow, -⟩ | ⟨-, -, -, hapu⟩ | ⟨-, -, -, hapu⟩
  · exact hsame.apu
  · exact hapu
  · exact absurd hwindow h
  all_goals exact hapu

theorem busRead_pads_eq {a : Word} (s : State) (h : a.toNat ≠ 0x4016 ∧ a.toNat ≠ 0x4017) :
    (busRead a s).2.pads = s.pads := by
  rcases busRead_devices a s with ⟨-, hsame⟩ | ⟨-, -, -, hpads⟩ | ⟨-, -, -, hpads⟩ | ⟨hwindow, -⟩ | ⟨hwindow, -⟩
  · exact hsame.pads
  · exact hpads
  · exact hpads
  · exact absurd hwindow h.1
  · exact absurd hwindow h.2

end Sys2Proof.Machine

namespace Sys2Proof

open Sys2Proof.Machine

/-- Settles O32: the latch, the event and the frame hold of every read; the byte and the side effect are those of the window the
address selects. -/
theorem busReadByRegion : Obligations.BusReadByRegion := by
  intro a s
  refine ⟨rfl, busRead_regs a s, busRead_ctl a s, OnlyReads.busRead a s, busRead_trace a s, State.peek_ram,
    fun h => State.peek_prgRam h.1 h.2, State.peek_rom, State.peek_openBus, busRead_ppu_eq s, busRead_apu_eq s, busRead_pads_eq s,
    fun h => ?_, fun h => ?_, fun h => ?_, fun h => ?_⟩
  · rw [busRead_fst, busRead_snd, State.peek, readRegion_ppu h]; exact ⟨rfl, rfl⟩
  · rw [busRead_fst, busRead_snd, State.peek, readRegion_apuStatus h]; exact ⟨rfl, rfl⟩
  · rw [busRead_fst, busRead_snd, State.peek, readRegion_pad1 h]; exact ⟨rfl, rfl⟩
  · rw [busRead_fst, busRead_snd, State.peek, readRegion_pad2 h]; exact ⟨rfl, rfl⟩

end Sys2Proof
end

section
/-! A bus write region by region (20_memory.md R201, R210 to R217, R227): what a write can make of the state, said once, one
case a region; OAM DMA's frame; the mirrors of RAM and of the PPU's registers. -/

namespace Sys2Proof.Machine

/-! ### The PPU's registers -/

/-- Of the cartridge, a write of a PPU register reaches only CHR. -/
theorem Ppu.writeReg_cart (c : Cart) (p : Ppu) (r : Nat) (d : Byte) :
    (p.writeReg c r d).1 = { c with chr := (p.writeReg c r d).1.chr } := by
  unfold Ppu.writeReg Ppu.writeData ppuWrite Cart.writeChr
  dsimp only
  repeat' split
  all_goals rfl

theorem Ppu.writeReg_frameCount (c : Cart) (p : Ppu) (r : Nat) (d : Byte) :
    (p.writeReg c r d).2.frame = p.frame := by
  unfold Ppu.writeReg Ppu.writeScroll Ppu.writeAddr Ppu.writeData ppuWrite
  dsimp only
  repeat' split
  all_goals rfl

/-! ### What a write of a region can make of the state -/

/-- `Written a v s t`: `t` is what a write of `v` to `a` makes of `s`, before the latch and the event, one constructor a
region. -/
inductive Written (a : Word) (v : Byte) (s : State) : State → Prop where
  | ram (h : a.toNat < 0x2000) : Written a v s { s with ram := Store.write s.ram (a.toNat % 0x800) v }
  | ppuReg (h : 0x2000 ≤ a.toNat ∧ a.toNat < 0x4000) :
    Written a v s
      ({ s with cart := (s.ppu.writeReg s.cart (a.toNat % 8) v).1 }.setPpu (s.ppu.writeReg s.cart (a.toNat % 8) v).2)
  | apuReg (h : 0x4000 ≤ a.toNat ∧ a.toNat < 0x4014) :
    Written a v s { s with apu := s.apu.writeReg (a.toNat - 0x4000) v }
  | enable (h : a.toNat = 0x4015) : Written a v s { s with apu := s.apu.writeEnable v }
  | strobe (h : a.toNat = 0x4016) : Written a v s { s with pads := s.pads.writeStrobe s.inputs v }
  | frameCounter (h : a.toNat = 0x4017) : Written a v s { s with apu := s.apu.writeFrameCounter v }
  | nothing (h : a.toNat = 0x4014 ∨ (0x4018 ≤ a.toNat ∧ a.toNat < 0x6000)) : Written a v s s
  | prgRam (h : 0x6000 ≤ a.toNat ∧ a.toNat < 0x8000) :
    Written a v s { s with cart := { s.cart with prgRam := Store.write s.cart.prgRam (a.toNat - 0x6000) v } }
  | bank (h : 0x8000 ≤ a.toNat) : Written a v s { s with cart := s.cart.onCpuWrite v }

theorem writeRegion_written (a : Word) (v : Byte) (s : State) : Written a v s (writeRegion a v s) := by
  rcases regionOf_cases a with ⟨h, e⟩ | ⟨h, h', e⟩ | ⟨h, h', e⟩ | ⟨h, e⟩ | ⟨h, e⟩ | ⟨h, e⟩ | ⟨h, e⟩ | ⟨h, h', e⟩ | ⟨h, e⟩ <;>
    simp only [writeRegion, e]
  · exact .ram h
  · exact .ppuReg ⟨h, h'⟩
  · exact .apuReg ⟨h, h'⟩
  · exact .nothing (.inl h)
  · exact .enable h
  · exact .strobe h
  · exact .frameCounter h
  · exact .nothing (.inr ⟨h, by omega⟩)
  · unfold Cart.write
    split
    · exact .nothing (.inr ⟨by omega, ‹_›⟩)
    · split
      · exact .prgRam ⟨by omega, ‹_›⟩
      · exact .bank (by omega)

namespace Written

variable {a b : Word} {v : Byte} {s t : State}

theorem frame (h : Written a v s t) :
    t.regs = s.regs ∧ t.ctl = { s.ctl with nmiPending := t.ctl.nmiPending } ∧ t.inputs = s.inputs ∧ t.trace = s.trace ∧
      t.ppu.frame = s.ppu.frame := by
  cases h with
  | ppuReg h => exact ⟨rfl, rfl, rfl, rfl, Ppu.writeReg_frameCount _ _ _ _⟩
  | _ => exact ⟨rfl, rfl, rfl, rfl, rfl⟩

/-- Outside the PPU's window a write latches no NMI and leaves CHR (R730, R241). -/
theorem noPpu (h : Written a v s t) (ha : ¬ (0x2000 ≤ a.toNat ∧ a.toNat < 0x4000)) :
    t.ctl = s.ctl ∧ t.cart.chr = s.cart.chr := by
  cases h with
  | ppuReg h => exact absurd h ha
  | bank h => refine ⟨rfl, ?_⟩; unfold Cart.onCpuWrite; split <;> rfl
  | _ => exact ⟨rfl, rfl⟩

/-- A write of storage or of an unused address touches no device. -/
theorem devices (h : Written a v s t) (ha : a.toNat < 0x2000 ∨ 0x4018 ≤ a.toNat) : SameDevices s t := by
  cases h with
  | ppuReg h => omega
  | apuReg h => omega
  | enable h => omega
  | strobe h => omega
  | frameCounter h => omega
  | _ => exact ⟨rfl, rfl, rfl⟩

/-- ROM and the cartridge's shape are never written (R227). -/
theorem fixed (h : Written a v s t) :
    t.cart.prgRom = s.cart.prgRom ∧ t.cart.prgBanks = s.cart.prgBanks ∧ t.cart.chrBanks = s.cart.chrBanks ∧
      t.cart.mirroring = s.cart.mirroring ∧ t.cart.mapper = s.cart.mapper := by
  cases h with
  | ppuReg h => rw [State.setPpu_cart, Ppu.writeReg_cart]; exact ⟨rfl, rfl, rfl, rfl, rfl⟩
  | bank h => unfold Cart.onCpuWrite; split <;> exact ⟨rfl, rfl, rfl, rfl, rfl⟩
  | _ => exact ⟨rfl, rfl, rfl, rfl, rfl⟩

/-- The bank registers move only by a write to ROM. -/
theorem banks (h : Written a v s t) (ha : a.toNat < 0x8000) :
    t.cart.prgSel = s.cart.prgSel ∧ t.cart.chrSel = s.cart.chrSel := by
  cases h with
  | ppuReg h => rw [State.setPpu_cart, Ppu.writeReg_cart]; exact ⟨rfl, rfl⟩
  | bank h => omega
  | _ => exact ⟨rfl, rfl⟩

theorem ram_eq (h : Written a v s t) (ha : ¬ a.toNat < 0x2000) : t.ram = s.ram := by
  cases h with
  | ram h => exact absurd h ha
  | _ => rfl

theorem prgRam_eq (h : Written a v s t) (ha : ¬ (0x6000 ≤ a.toNat ∧ a.toNat < 0x8000)) : t.cart.prgRam = s.cart.prgRam := by
  cases h with
  | ppuReg h => rw [State.setPpu_cart, Ppu.writeReg_cart]
  | prgRam h => exact absurd h ha
  | bank h => unfold Cart.onCpuWrite; split <;> rfl
  | _ => rfl

end Written

/-! ### The bytes after a write -/

/-- `map_cpu` depends on the mapper, the PRG bank count and the PRG bank register. -/
theorem Cart.mapCpu_congr {c d : Cart} (hm : d.mapper = c.mapper) (hb : d.prgBanks = c.prgBanks) (hs : d.prgSel = c.prgSel)
    (k : Nat) : d.mapCpu k = c.mapCpu k := by
  simp only [Cart.mapCpu, Cart.prgSize, hm, hb, hs]

namespace Written

variable {a b : Word} {v : Byte} {s t : State}

theorem peek_self (h : Written a v s t) (hs : s.MemOk)
    (ha : a.toNat < 0x2000 ∨ (0x6000 ≤ a.toNat ∧ a.toNat < 0x8000)) : t.peek a = v := by
  cases h with
  | ram h => rw [State.peek_ram h]; exact Store.read_write_self hs.ram.1 _ v
  | prgRam h => rw [State.peek_prgRam h.1 h.2]; exact Store.read_write_self hs.cart.prgRam.1 _ v
  | _ => omega

/-- Every byte of internal RAM and PRG RAM but the written one is as before. -/
theorem peek_other (h : Written a v s t) (hs : s.MemOk)
    (hb : b.toNat < 0x2000 ∨ (0x6000 ≤ b.toNat ∧ b.toNat < 0x8000)) (hne : ¬ SameCell b a) : t.peek b = s.peek b := by
  rcases hb with hb | hb
  · rw [State.peek_ram hb, State.peek_ram hb]
    by_cases ha : a.toNat < 0x2000
    · have hcell : b.toNat % 0x800 ≠ a.toNat % 0x800 := fun e => hne (.inr ⟨hb, ha, e⟩)
      cases h with
      | ram h => exact Store.read_write_ne hs.ram.1 v hcell
      | _ => omega
    · rw [h.ram_eq ha]
  · rw [State.peek_prgRam hb.1 hb.2, State.peek_prgRam hb.1 hb.2]
    by_cases ha : 0x6000 ≤ a.toNat ∧ a.toNat < 0x8000
    · have hcell : b.toNat - 0x6000 ≠ a.toNat - 0x6000 :=
        fun e => hne (.inl (BitVec.eq_of_toNat_eq (by omega)))
      cases h with
      | prgRam h => exact Store.read_write_ne hs.cart.prgRam.1 v hcell
      | _ => omega
    · rw [h.prgRam_eq ha]

/-- The mapper shows the same bytes unless the write reaches it. -/
theorem peek_rom (h : Written a v s t) (ha : a.toNat < 0x8000) (hb : 0x8000 ≤ b.toNat) : t.peek b = s.peek b := by
  obtain ⟨hrom, hbanks, -, -, hmapper⟩ := h.fixed
  rw [State.peek_rom hb, State.peek_rom hb, hrom, Cart.mapCpu_congr hmapper hbanks (h.banks ha).1]

end Written

/-! ### The devices after a write to their window -/

namespace Written

variable {a : Word} {v : Byte} {s t : State}

theorem ppuReg_eq (h : Written a v s t) (ha : 0x2000 ≤ a.toNat ∧ a.toNat < 0x4000) :
    t.ppu = (s.ppu.writeReg s.cart (a.toNat % 8) v).2 ∧ t.cart = (s.ppu.writeReg s.cart (a.toNat % 8) v).1 ∧
      t.apu = s.apu ∧ t.pads = s.pads := by
  cases h with
  | ppuReg h => exact ⟨rfl, rfl, rfl, rfl⟩
  | _ => omega

theorem apuReg_eq (h : Written a v s t) (ha : 0x4000 ≤ a.toNat ∧ a.toNat < 0x4014) :
    t.apu = s.apu.writeReg (a.toNat - 0x4000) v ∧ t.ppu = s.ppu ∧ t.pads = s.pads := by
  cases h with
  | apuReg h => exact ⟨by dsimp only, rfl, rfl⟩
  | _ => omega

theorem enable_eq (h : Written a v s t) (ha : a.toNat = 0x4015) :
    t.apu = s.apu.writeEnable v ∧ t.ppu = s.ppu ∧ t.pads = s.pads := by
  cases h with
  | enable h => exact ⟨rfl, rfl, rfl⟩
  | _ => omega

theorem strobe_eq (h : Written a v s t) (ha : a.toNat = 0x4016) :
    t.pads = s.pads.writeStrobe s.inputs v ∧ t.ppu = s.ppu ∧ t.apu = s.apu := by
  cases h with
  | strobe h => exact ⟨rfl, rfl, rfl⟩
  | _ => omega

theorem frameCounter_eq (h : Written a v s t) (ha : a.toNat = 0x4017) :
    t.apu = s.apu.writeFrameCounter v ∧ t.ppu = s.ppu ∧ t.pads = s.pads := by
  cases h with
  | frameCounter h => exact ⟨rfl, rfl, rfl⟩
  | _ => omega

theorem bank_eq (h : Written a v s t) (ha : 0x8000 ≤ a.toNat) : t.cart = s.cart.onCpuWrite v := by
  cases h with
  | bank h => rfl
  | _ => omega

end Written

/-! ### A write but for OAM DMA -/

/-- The latch and the event change no byte of storage. -/
theorem State.conclude_peek (s : State) (k : AccessKind) (c : Nat) (a : Word) (v : Byte) {b : Word}
    (hb : isStorage b = true) : (s.conclude k c a v).peek b = s.peek b :=
  State.peek_congr (s := s) (t := s.conclude k c a v) rfl rfl hb

theorem isStorage_of_ram_or_cart {b : Word} (h : b.toNat < 0x2000 ∨ 0x6000 ≤ b.toNat) : isStorage b = true := by
  simpa [isStorage] using h

/-- What a write makes of the state, with its latch and its event, is what `StoredAt` says. -/
theorem Written.storedAt {a : Word} {v : Byte} {s t : State} (h : Written a v s t) (hs : s.MemOk) :
    StoredAt a v s (t.conclude .write s.ctl.instrCycle a v) := by
  obtain ⟨-, hctl, hinputs, htrace, hframe⟩ := h.frame
  have hpeek : ∀ {b : Word}, b.toNat < 0x2000 ∨ 0x6000 ≤ b.toNat →
      (t.conclude .write s.ctl.instrCycle a v).peek b = t.peek b :=
    fun hb => State.conclude_peek _ _ _ _ _ (isStorage_of_ram_or_cart hb)
  exact {
    ctl := by rw [State.conclude_ctl, hctl]
    inputs := hinputs
    fixed := h.fixed
    value := fun ha => by rw [hpeek (by omega)]; exact h.peek_self hs ha
    others := fun b hb hne => by rw [hpeek (by omega)]; exact h.peek_other hs hb hne
    rom := fun ha b hb => by rw [hpeek (by omega)]; exact h.peek_rom ha hb
    banks := h.banks
    mapper := h.bank_eq
    devices := fun ha => by
      obtain ⟨hppu, hapu, hpads⟩ := h.devices ha
      exact ⟨hppu, hapu, hpads⟩
    nmi := fun ha => congrArg Control.nmiPending (h.noPpu ha).1
    chr := fun ha => (h.noPpu ha).2
    ppuReg := h.ppuReg_eq
    apuReg := h.apuReg_eq
    apuEnable := h.enable_eq
    strobe := h.strobe_eq
    frameCounter := h.frameCounter_eq
    event := fun _ => by
      rw [State.conclude_ctl, State.conclude_trace, htrace, hctl, hinputs, hframe]
      exact ⟨rfl, rfl, rfl, _, rfl, rfl, rfl, rfl, rfl, rfl, rfl, rfl⟩ }

/-! ### OAM DMA -/

/-- Registers, control state, RAM, cartridge and inputs are the same in `t` as in `s`. -/
structure SameCore (s t : State) : Prop where
  regs : t.regs = s.regs
  ctl : t.ctl = s.ctl
  ram : t.ram = s.ram
  cart : t.cart = s.cart
  inputs : t.inputs = s.inputs

theorem SameCore.refl (s : State) : SameCore s s := ⟨rfl, rfl, rfl, rfl, rfl⟩

theorem SameCore.trans {s t u : State} (h : SameCore s t) (k : SameCore t u) : SameCore s u :=
  ⟨k.regs.trans h.regs, k.ctl.trans h.ctl, k.ram.trans h.ram, k.cart.trans h.cart, k.inputs.trans h.inputs⟩

theorem SameCore.busRead (a : Word) (s : State) : SameCore s (Machine.busRead a s).2 :=
  ⟨busRead_regs a s, busRead_ctl a s, busRead_ram a s, busRead_cart a s, busRead_inputs a s⟩

/-- A write of OAMDATA stores in OAM and latches no NMI: the NMI output does not depend on OAM (R730, R814). -/
theorem plainWrite_oamData (v : Byte) (s : State) :
    plainWrite 0x2004 v s =
      { s with
        ppu := Ppu.writeOam { s.ppu with ioLatch := v } v, busLatch := v, trace := s.event .write 0x2004 v :: s.trace } := by
  have hnmi : (s.ctl.nmiPending || (!s.ppu.nmiOut && s.ppu.nmiOut)) = s.ctl.nmiPending := by simp
  have hwrite : writeRegion 0x2004 v s = { s with ppu := Ppu.writeOam { s.ppu with ioLatch := v } v } := by
    show { s with
        ppu := Ppu.writeOam { s.ppu with ioLatch := v } v
        ctl := { s.ctl with nmiPending := s.ctl.nmiPending || (!s.ppu.nmiOut && s.ppu.nmiOut) } } = _
    rw [hnmi]
  rw [plainWrite, hwrite]
  rfl

theorem SameCore.dmaByte (v : Byte) (i : Nat) (s : State) : SameCore s (Machine.dmaByte v i s) := by
  refine (SameCore.busRead (wordOf v (BitVec.ofNat 8 i)) s).trans ?_
  rw [Machine.dmaByte, plainWrite_oamData]
  exact ⟨rfl, rfl, rfl, rfl, rfl⟩

theorem SameCore.dmaBytes (v : Byte) (left i : Nat) (s : State) : SameCore s (Machine.dmaBytes v left i s) := by
  induction left generalizing i s with
  | zero => exact SameCore.refl s
  | succ k ih => exact (SameCore.dmaByte v i s).trans (ih (i + 1) _)

/-- OAM DMA changes the control state by its cycles alone, and no register, no RAM and no part of the cartridge. -/
theorem oamDma_frame (v : Byte) (s : State) :
    (oamDma v s).regs = s.regs ∧ (oamDma v s).ctl = { s.ctl with stepCycles := (oamDma v s).ctl.stepCycles } ∧
      (oamDma v s).ram = s.ram ∧ (oamDma v s).cart = s.cart ∧ (oamDma v s).inputs = s.inputs := by
  have h := SameCore.dmaBytes v 256 0 s
  refine ⟨h.regs, ?_, h.ram, h.cart, h.inputs⟩
  rw [oamDma, State.addCycles_ctl, h.ctl]

/-- What a write to $4014 leaves alone, the DMA it starts included. -/
theorem StoredAt.oamDma (v : Byte) (s : State) : StoredAt 0x4014 v s (Machine.oamDma v (plainWrite 0x4014 v s)) := by
  have hwrite : plainWrite 0x4014 v s = s.conclude .write s.ctl.instrCycle 0x4014 v := rfl
  rw [hwrite]
  obtain ⟨-, hctl, hram, hcart, hinputs⟩ := oamDma_frame v (s.conclude .write s.ctl.instrCycle 0x4014 v)
  have hpeek : ∀ {b : Word}, b.toNat < 0x2000 ∨ 0x6000 ≤ b.toNat →
      (Machine.oamDma v (s.conclude .write s.ctl.instrCycle 0x4014 v)).peek b = s.peek b :=
    fun hb => State.peek_congr (s := s) hram hcart (isStorage_of_ram_or_cart hb)
  have ha : (0x4014 : Word).toNat = 0x4014 := rfl
  exact {
    ctl := by rw [hctl]; rfl
    inputs := hinputs
    fixed := by rw [hcart]; exact ⟨rfl, rfl, rfl, rfl, rfl⟩
    value := by omega
    others := fun b hb _ => hpeek (by omega)
    rom := fun _ b hb => hpeek (by omega)
    banks := fun _ => by rw [hcart]; exact ⟨rfl, rfl⟩
    mapper := by omega
    devices := by omega
    nmi := fun _ => by rw [hctl]; rfl
    chr := fun _ => by rw [hcart]; rfl
    ppuReg := by omega
    apuReg := by omega
    apuEnable := by omega
    strobe := by omega
    frameCounter := by omega
    event := fun h => absurd rfl h }

end Sys2Proof.Machine

namespace Sys2Proof

open Sys2Proof.Machine

/-- Settles O33: the transaction by the region it writes, and for $4014 what OAM DMA leaves alone. -/
theorem busWriteByRegion : Obligations.BusWriteByRegion := by
  intro a v s hs
  by_cases ha : a = 0x4014
  · subst ha
    rw [busWrite_dma]
    exact ⟨StoredAt.oamDma v s, (oamDma_frame v _).1⟩
  · rw [busWrite_ne v s ha]
    have h := writeRegion_written a v s
    exact ⟨h.storedAt hs, h.frame.1⟩

/-- Settles O34: RAM is written and read at the address modulo $800, so read after write decides. -/
theorem ramMirrorsNameOneByte : Obligations.RamMirrorsNameOneByte := by
  intro s a b v hs ha hb
  obtain ⟨hwf, -⟩ := hs.ram
  rw [busWrite_ram ha]
  refine ⟨rfl, State.peek_ram hb, rfl, rfl, rfl, rfl, rfl, rfl, fun e => ?_, fun hne => ?_, ?_⟩
  · rw [busRead_fst, State.peek_ram hb, ← e]
    exact Store.read_write_self hwf _ v
  · rw [busRead_fst, busRead_fst, State.peek_ram hb, State.peek_ram hb]
    exact Store.read_write_ne hwf v (Ne.symm hne)
  · rw [busRead_storage (.inl hb)]
    rfl

/-- Settles O35: a mirror and its base address select the same register. -/
theorem ppuRegisterMirrors : Obligations.PpuRegisterMirrors := by
  intro a b v s hlo hhi hb
  have hreg : (0x2000 + a.toNat % 8) % 8 = a.toNat % 8 := by omega
  have hbase : regionOf b = .ppuReg (a.toNat % 8) := by rw [regionOf_ppu (by omega) (by omega), hb, hreg]
  simp only [readRegion, writeRegion, regionOf_ppu hlo hhi, hbase, and_self]

end Sys2Proof
end

section
/-! The mappers' windows after a bank select (20_memory.md R225 to R233) and the mirroring of the nametables (R223). -/

namespace Sys2Proof.Machine

/-! ### Reads of the mapped ranges -/

theorem Cart.read_rom {a : Nat} (c : Cart) (latch : Byte) (ha : 0x8000 ≤ a) :
    c.read latch a = Store.read c.prgRom (c.mapCpu a) := by
  simp only [Cart.read, show ¬ a < 0x6000 by omega, show ¬ a < 0x8000 by omega, if_false]

theorem ppuRead_chr {a : BitVec 14} (c : Cart) (p : Ppu) (ha : a.toNat < 0x2000) :
    ppuRead c p a = Store.read c.chr (c.mapPpu a.toNat) := by
  simp only [ppuRead, ha, if_true]

/-- The PPU sees of a cartridge its CHR, its CHR mapping and its mirroring. -/
theorem ppuRead_congr {c d : Cart} (hchr : d.chr = c.chr) (hmap : ∀ k, d.mapPpu k = c.mapPpu k)
    (hmir : d.mirroring = c.mirroring) (p : Ppu) (a : BitVec 14) : ppuRead d p a = ppuRead c p a := by
  simp only [ppuRead, hchr, hmap, hmir]

/-! ### The windows of the mappers -/

/-- Mapper 2 below $C000: the selected bank (R231). -/
theorem Cart.read_m2_low {c : Cart} {a : Nat} (hm : c.mapper = .m2) (latch : Byte) (hlo : 0x8000 ≤ a) (hhi : a < 0xC000) :
    c.read latch a = Store.read c.prgRom (c.prgSel * 16384 + (a - 0x8000)) := by
  rw [Cart.read_rom c latch hlo, Cart.mapCpu, hm]
  exact congrArg _ (if_pos hhi)

/-- Mapper 2 from $C000 on: the last bank, whatever is selected (R231). -/
theorem Cart.read_m2_high {c : Cart} {a : Nat} (hm : c.mapper = .m2) (latch : Byte) (hlo : 0xC000 ≤ a) :
    c.read latch a = Store.read c.prgRom ((c.prgBanks - 1) * 16384 + (a - 0xC000)) := by
  rw [Cart.read_rom c latch (by omega), Cart.mapCpu, hm]
  exact congrArg _ (if_neg (Nat.not_lt.mpr hlo))

/-- Mapper 3 has no PRG bank register (R233). -/
theorem Cart.read_m3 {c : Cart} {a : Nat} (hm : c.mapper = .m3) (latch : Byte) (hlo : 0x8000 ≤ a) :
    c.read latch a = Store.read c.prgRom ((a - 0x8000) % (c.prgBanks * 16384)) := by
  rw [Cart.read_rom c latch hlo, Cart.mapCpu, hm]
  rfl

/-- Mapper 3: the selected CHR bank (R233). -/
theorem ppuRead_m3 {c : Cart} {a : BitVec 14} (hm : c.mapper = .m3) (p : Ppu) (ha : a.toNat < 0x2000) :
    ppuRead c p a = Store.read c.chr (c.chrSel * 8192 + a.toNat) := by
  rw [ppuRead_chr c p ha, Cart.mapPpu, hm]
  rfl

/-! ### The bank selects -/

theorem Cart.onCpuWrite_m0 {c : Cart} (hm : c.mapper = .m0) (v : Byte) : c.onCpuWrite v = c := by
  simp only [Cart.onCpuWrite, hm]

theorem Cart.onCpuWrite_m2 {c : Cart} (hm : c.mapper = .m2) (v : Byte) :
    c.onCpuWrite v = { c with prgSel := v.toNat % c.prgBanks } := by
  simp only [Cart.onCpuWrite, hm]

theorem Cart.onCpuWrite_m3 {c : Cart} (hm : c.mapper = .m3) (v : Byte) :
    c.onCpuWrite v = { c with chrSel := v.toNat % c.chrBanks } := by
  simp only [Cart.onCpuWrite, hm]

/-! ### Nametables -/

/-- A bit of the folded address and its low ten bits, by division. -/
theorem nametableBits (t i : Nat) : ((t >>> i) &&& 1) * 0x400 + (t &&& 0x3FF) = t / 2 ^ i % 2 * 0x400 + t % 0x400 := by
  rw [Nat.shiftRight_eq_div_pow, Nat.and_one_is_mod, show 0x3FF = 2 ^ 10 - 1 from rfl, Nat.and_two_pow_sub_one_eq_mod]

theorem vramIndex_bits (a : Nat) :
    let t := (a - 0x2000) &&& 0x0FFF
    vramIndex .horizontal a = ((t >>> 11) &&& 1) * 0x400 + (t &&& 0x3FF) ∧
    vramIndex .vertical a = ((t >>> 10) &&& 1) * 0x400 + (t &&& 0x3FF) := by
  have hfold : (a - 0x2000) &&& 0x0FFF = (a - 0x2000) % 0x1000 := Nat.and_two_pow_sub_one_eq_mod _ 12
  simp only [hfold, nametableBits]
  exact ⟨rfl, rfl⟩

/-- $3000 to $3EFF fold onto $2000 to $2EFF. -/
theorem vramIndex_fold (m : Mirroring) {a : Nat} (ha : 0x3000 ≤ a) : vramIndex m a = vramIndex m (a - 0x1000) := by
  have hfold : (a - 0x2000) % 0x1000 = (a - 0x1000 - 0x2000) % 0x1000 := by omega
  simp only [vramIndex, hfold]

end Sys2Proof.Machine

namespace Sys2Proof

open Sys2Proof.Machine

/-- Settles O36: each mapper's bank register enters its own window's translation and no other. -/
theorem bankSelectMovesOneWindow : Obligations.BankSelectMovesOneWindow := by
  intro c latch v _
  refine ⟨fun hm => Cart.onCpuWrite_m0 hm v, fun hm => ?_, fun hm => ?_⟩
  · rw [Cart.onCpuWrite_m2 hm]
    have hd : ({ c with prgSel := v.toNat % c.prgBanks } : Cart).mapper = .m2 := hm
    refine ⟨fun a hlo hhi => Cart.read_m2_low hd latch hlo hhi, fun a hlo _ => ?_,
      ppuRead_congr rfl (fun _ => rfl) rfl⟩
    have hlast := Cart.read_m2_high hd latch hlo
    exact ⟨hlast, hlast.trans (Cart.read_m2_high hm latch hlo).symm⟩
  · rw [Cart.onCpuWrite_m3 hm]
    have hd : ({ c with chrSel := v.toNat % c.chrBanks } : Cart).mapper = .m3 := hm
    refine ⟨fun a hlo _ => ?_, fun p a ha => ppuRead_m3 hd p ha⟩
    have hprg := Cart.read_m3 hd latch hlo
    exact ⟨hprg, hprg.trans (Cart.read_m3 hm latch hlo).symm⟩

/-- Settles O38: the masks and shifts of R223 are the remainders and quotients of `vramIndex`, so the fold and the windows are
arithmetic. -/
theorem nametableMirroring : Obligations.NametableMirroring := by
  refine ⟨fun a _ _ => vramIndex_bits a, fun m a ha _ => vramIndex_fold m ha, fun k hk => ?_⟩
  simp only [vramIndex]
  omega

end Sys2Proof
end

section
/-! Loading an image: exactly which images load, what the cartridge holds, and that a loaded and reset machine meets the
invariants (20_memory.md R220 to R234; 70_reset_and_hazards.md R1030, R1032). -/

namespace Sys2Proof.Machine

/-! ### Which images load -/

/-- The PRG bank count an image declares (R220). -/
def imagePrg (img : List Byte) : Nat := (imageByte img 4).toNat

/-- The CHR bank count an image declares (R220). -/
def imageChr (img : List Byte) : Nat := (imageByte img 5).toNat

/-- An image that meets every condition of R221, with its mapper. -/
structure ValidImage (img : List Byte) (m : Mapper) : Prop where
  header : 16 ≤ img.length
  magic : img.take 4 = [0x4E, 0x45, 0x53, 0x1A]
  trainer : bitAt (imageByte img 6) 2 = false
  fourScreen : bitAt (imageByte img 6) 3 = false
  size : 16 + imagePrg img * prgBankSize + imageChr img * chrBankSize ≤ img.length
  mapper : mapperOf (imageMapperId img) = some m
  admits : m.admits (imagePrg img) (imageChr img) = true

/-- Every mapper needs a PRG bank (R230, R231, R233). -/
theorem Mapper.prg_pos_of_admits {m : Mapper} {prg chr : Nat} (h : m.admits prg chr = true) : 0 < prg := by
  cases m <;> simp [Mapper.admits] at h <;> omega

/-- A guarded load answers a cartridge if its guard does not hold and the rest does. -/
theorem ite_error_eq_ok_iff {p : Prop} [Decidable p] {e : LoadError} {x : Except LoadError Cart} {c : Cart} :
    (if p then .error e else x) = .ok c ↔ ¬ p ∧ x = .ok c := by
  split <;> simp [*]

/-- Loading succeeds exactly on the valid images. -/
theorem loadCart_eq_ok_iff (img : List Byte) (c : Cart) :
    loadCart img = .ok c ↔ ∃ m, ValidImage img m ∧ c = cartOfImage img m (imagePrg img) (imageChr img) := by
  simp only [loadCart, ite_error_eq_ok_iff, not_or, not_lt, not_not, Bool.not_eq_true]
  constructor
  · rintro ⟨⟨hheader, hmagic⟩, htrainer, hfour, -, hsize, hload⟩
    split at hload
    · cases hload
    next m hmapper =>
    split at hload
    · next hadmits =>
      cases hload
      exact ⟨m, ⟨hheader, hmagic, htrainer, hfour, hsize, hmapper, hadmits⟩, rfl⟩
    · cases hload
  · rintro ⟨m, h, rfl⟩
    have hprg : (imageByte img 4).toNat ≠ 0 := (Mapper.prg_pos_of_admits h.admits).ne'
    refine ⟨⟨h.header, h.magic⟩, h.trainer, h.fourScreen, hprg, h.size, ?_⟩
    rw [h.mapper]
    exact if_pos h.admits

theorem exists_loadCart_eq_ok_iff (img : List Byte) : (∃ c, loadCart img = .ok c) ↔ ∃ m, ValidImage img m := by
  simp only [loadCart_eq_ok_iff]
  exact ⟨fun ⟨_, m, h, _⟩ => ⟨m, h⟩, fun ⟨m, h⟩ => ⟨_, m, h, rfl⟩⟩

/-! ### The conditions in numbers -/

theorem take_four_eq_iff {img : List Byte} (h : 4 ≤ img.length) (a b c d : Byte) :
    img.take 4 = [a, b, c, d] ↔ img.getD 0 0 = a ∧ img.getD 1 0 = b ∧ img.getD 2 0 = c ∧ img.getD 3 0 = d := by
  match img, h with
  | w :: x :: y :: z :: r, _ => simp

/-- The mapper id: the high half of byte 7, then the high half of byte 6 (R220). -/
theorem imageMapperId_eq (img : List Byte) :
    imageMapperId img = (imageByte img 7).toNat / 16 * 16 + (imageByte img 6).toNat / 16 := by
  have hhigh : imageByte img 7 &&& 0xF0 = (imageByte img 7 >>> 4) <<< 4 := by
    ext i hi
    interval_cases i <;> simp
  have hdisjoint : (imageByte img 7 >>> 4) <<< 4 &&& imageByte img 6 >>> 4 = 0 := by
    ext i hi
    interval_cases i <;> simp
  rw [imageMapperId, hhigh, ← BitVec.add_eq_or_of_and_eq_zero _ _ hdisjoint]
  bv_omega

theorem mapperOf_eq_some_iff (id : Nat) (m : Mapper) :
    mapperOf id = some m ↔ (id = 0 ∧ m = .m0) ∨ (id = 2 ∧ m = .m2) ∨ (id = 3 ∧ m = .m3) := by
  unfold mapperOf
  split
  · simp [eq_comm]
  · simp [eq_comm]
  · simp [eq_comm]
  · next h0 h2 h3 => simp [show id ≠ 0 from h0, show id ≠ 2 from h2, show id ≠ 3 from h3]

/-- Bank counts are bytes, so of the upper bounds on them only 1 and 2 remain. -/
theorem admits_image_iff (img : List Byte) (m : Mapper) :
    m.admits (imagePrg img) (imageChr img) = true ↔
      (m = .m0 ∧ (imagePrg img = 1 ∨ imagePrg img = 2) ∧ imageChr img ≤ 1) ∨
      (m = .m2 ∧ 1 ≤ imagePrg img ∧ imageChr img ≤ 1) ∨
      (m = .m3 ∧ (imagePrg img = 1 ∨ imagePrg img = 2) ∧ 1 ≤ imageChr img) := by
  have hprg : imagePrg img ≤ 255 := Nat.le_of_lt_succ (imageByte img 4).isLt
  have hchr : imageChr img ≤ 255 := Nat.le_of_lt_succ (imageByte img 5).isLt
  cases m <;> simp [Mapper.admits, hprg, hchr]

/-- The valid images, byte by byte (R221). -/
theorem exists_validImage_iff (img : List Byte) :
    (∃ m, ValidImage img m) ↔
      16 ≤ img.length ∧ imageByte img 0 = 0x4E ∧ imageByte img 1 = 0x45 ∧ imageByte img 2 = 0x53 ∧ imageByte img 3 = 0x1A ∧
      bitAt (imageByte img 6) 2 = false ∧ bitAt (imageByte img 6) 3 = false ∧
      16 + imagePrg img * 16384 + imageChr img * 8192 ≤ img.length ∧
      ((imageMapperId img = 0 ∧ (imagePrg img = 1 ∨ imagePrg img = 2) ∧ imageChr img ≤ 1) ∨
        (imageMapperId img = 2 ∧ 1 ≤ imagePrg img ∧ imageChr img ≤ 1) ∨
        (imageMapperId img = 3 ∧ (imagePrg img = 1 ∨ imagePrg img = 2) ∧ 1 ≤ imageChr img)) := by
  constructor
  · rintro ⟨m, h⟩
    obtain ⟨h0, h1, h2, h3⟩ := (take_four_eq_iff (Nat.le_trans (by decide) h.header) _ _ _ _).mp h.magic
    refine ⟨h.header, h0, h1, h2, h3, h.trainer, h.fourScreen, h.size, ?_⟩
    have hadmits := (admits_image_iff img m).mp h.admits
    rcases (mapperOf_eq_some_iff _ m).mp h.mapper with ⟨hid, rfl⟩ | ⟨hid, rfl⟩ | ⟨hid, rfl⟩ <;> simpa [hid] using hadmits
  · rintro ⟨hlen, h0, h1, h2, h3, htrainer, hfour, hsize, hbanks⟩
    have hmagic := (take_four_eq_iff (Nat.le_trans (by decide) hlen) _ _ _ _).mpr ⟨h0, h1, h2, h3⟩
    have hmapper : ∃ m, mapperOf (imageMapperId img) = some m ∧ m.admits (imagePrg img) (imageChr img) = true := by
      simp only [mapperOf_eq_some_iff, admits_image_iff]
      rcases hbanks with ⟨hid, hadmits⟩ | ⟨hid, hadmits⟩ | ⟨hid, hadmits⟩
      · exact ⟨.m0, by simpa [hid] using hadmits⟩
      · exact ⟨.m2, by simpa [hid] using hadmits⟩
      · exact ⟨.m3, by simpa [hid] using hadmits⟩
    obtain ⟨m, hmapper, hadmits⟩ := hmapper
    exact ⟨m, hlen, hmagic, htrainer, hfour, hsize, hmapper, hadmits⟩

/-! ### What the cartridge holds -/

/-- Byte `k` of the memory made of `n` bytes of the image from byte `start` on. -/
theorem read_ofBytes_take_drop (img : List Byte) {start n k : Nat} (hk : k < n) :
    Store.read (Store.ofBytes ((img.drop start).take n) 0) k = imageByte img (start + k) := by
  simp [Store.read_ofBytes, imageByte, hk]

theorem read_cartOfImage_prgRom (img : List Byte) (m : Mapper) (prg chr : Nat) {k : Nat} (hk : k < prg * 16384) :
    Store.read (cartOfImage img m prg chr).prgRom k = imageByte img (16 + k) :=
  read_ofBytes_take_drop img hk

theorem read_cartOfImage_chr (img : List Byte) (m : Mapper) (prg chr : Nat) {k : Nat} (hk : k < chr * 8192) :
    Store.read (cartOfImage img m prg chr).chr k = imageByte img (16 + prg * 16384 + k) := by
  have h := read_ofBytes_take_drop img (start := 16 + prg * 16384) hk
  rwa [← List.drop_drop] at h

/-- CHR RAM starts as zeros (R222). -/
theorem read_cartOfImage_chrRam (img : List Byte) (m : Mapper) (prg k : Nat) :
    Store.read (cartOfImage img m prg 0).chr k = 0 := by
  simp [cartOfImage, Store.ofBytes, Store.unlisted]

/-- The cartridge of a valid image is in order. -/
theorem Cart.ok_cartOfImage (img : List Byte) {m : Mapper} {prg chr : Nat} (h : m.admits prg chr = true) :
    (cartOfImage img m prg chr).Ok where
  admits := h
  prgSel := Mapper.prg_pos_of_admits h
  chrSel := .inl rfl
  chrSelOff _ := rfl
  prgSelOff _ := rfl
  prgRom := ⟨Store.wf_ofBytes _ _, fun e he => (Store.within_ofBytes _ e he).trans_le (List.length_take_le _ _)⟩
  chr := by
    refine ⟨Store.wf_ofBytes _ _, fun e he => (Store.within_ofBytes _ e he).trans_le ((List.length_take_le _ _).trans ?_)⟩
    show chr * chrBankSize ≤ if chr == 0 then chrBankSize else chr * chrBankSize
    split
    · next h0 => simp [eq_of_beq h0]
    · exact Nat.le_refl _
  prgRam := ⟨Store.wf_nil, Store.within_nil _⟩

end Sys2Proof.Machine

namespace Sys2Proof

open Sys2Proof.Machine

/-- Settles O58: an image loads exactly when it is valid, and the cartridge is then the one made of the image's bytes. -/
theorem loadAcceptsExactlyValidImages : Obligations.LoadAcceptsExactlyValidImages := by
  intro img byte prg chr id
  have hid : imageMapperId img = id := imageMapperId_eq img
  refine ⟨?_, fun c hc => ?_⟩
  · rw [← hid]
    exact (exists_loadCart_eq_ok_iff img).trans (exists_validImage_iff img)
  · obtain ⟨m, h, rfl⟩ := (loadCart_eq_ok_iff img c).mp hc
    have hmapper : ∀ {k n}, mapperOf k = some n → id = k → m = n := fun hk e =>
      Option.some.inj (by rw [← h.mapper, hid, e, hk])
    refine ⟨hmapper rfl, hmapper rfl, hmapper rfl, rfl, rfl, rfl, rfl, rfl, rfl,
      fun k hk => read_cartOfImage_prgRom img m prg chr hk, fun k hk => read_cartOfImage_chr img m prg chr hk,
      fun h0 k => ?_⟩
    rw [show imageChr img = 0 from h0]
    exact read_cartOfImage_chrRam img m _ k

end Sys2Proof
end

section
/-! Reset machines meet the invariants: what `resetOp` leaves (70_reset_and_hazards.md R1030), and that the memories stay in
order and the devices stand in range after it. -/

namespace Sys2Proof.Machine

/-! ### What a reset leaves -/

/-- The vectors are read from ROM, which touches no device and no memory. -/
theorem resetOp_eq (s : State) :
    resetOp s =
      { s.resetLatches with
        regs := (resetOp s).regs, ctl := (resetOp s).ctl, busLatch := (resetOp s).busLatch, trace := (resetOp s).trace } := by
  have hread := read16_storage (s := s.resetLatches) (a := resetVector) (b := resetVector + 1) (.inr (by decide))
    (.inr (by decide))
  simp only [resetOp, hread]

theorem resetOp_fault (s : State) : (resetOp s).ctl.fault = none := by
  have hctl := read16_ctl resetVector (resetVector + 1) s.resetLatches
  simp only [resetOp, hctl]
  rfl

/-! ### The memories -/

theorem State.MemOk.resetOp {s : State} (h : s.MemOk) : (Machine.resetOp s).MemOk := by
  rw [resetOp_eq]
  exact ⟨h.ram, h.cart.reset, Ppu.memOk_resetWith h.ppu⟩

/-- The memories of the PPU are empty at power-on (R1032). -/
theorem Ppu.memOk_powerOn : (Ppu.resetWith [] [] []).MemOk where
  vram := ⟨Store.wf_nil, Store.within_nil _⟩
  palette := ⟨Store.wf_nil, Store.within_nil _⟩
  oam := ⟨Store.wf_nil, Store.within_nil _⟩
  fb := ⟨Store.wf_nil, Store.within_nil _⟩
  attr _ _ := BitVec.zero_and

theorem State.memOk_powerOn {c : Cart} (h : c.Ok) : (State.powerOn c).MemOk :=
  ⟨⟨Store.wf_nil, Store.within_nil _⟩, h, Ppu.memOk_powerOn⟩

theorem Cart.ok_blank : Cart.blank.Ok := by constructor <;> decide

/-- The reset state is the powered-on machine with the blank cartridge, but for the events of its vector reads (log 1). -/
theorem State.memOk_reset : State.reset.MemOk :=
  have h := State.memOk_powerOn Cart.ok_blank
  ⟨h.ram, h.cart, h.ppu⟩

/-- A loaded machine is a powered-on one with a cartridge in order (R221). -/
theorem loadImage_eq_ok {img : List Byte} {s : State} (h : loadImage img = .ok s) :
    ∃ c : Cart, c.Ok ∧ s = State.powerOn c := by
  unfold loadImage at h
  split at h
  · next c hc =>
    cases h
    obtain ⟨m, hvalid, rfl⟩ := (loadCart_eq_ok_iff img c).mp hc
    exact ⟨_, Cart.ok_cartOfImage img hvalid.admits, rfl⟩
  · cases h

/-! ### The devices -/

theorem Ppu.rangeOk_resetWith (vram : Memory) (palette : Store 6) (oam : Memory) :
    (Ppu.resetWith vram palette oam).RangeOk := ⟨Nat.zero_le _, Nat.zero_le _, Nat.zero_le _⟩

/-- The length of a silent channel is 0. -/
theorem LengthOk.zero (enabled : Bool) : LengthOk enabled 0 := ⟨Nat.zero_le _, fun _ => rfl⟩

theorem Apu.rangeOk_reset : Apu.reset.RangeOk where
  pulse1 := LengthOk.zero _
  pulse2 := LengthOk.zero _
  triangle := LengthOk.zero _
  noise := LengthOk.zero _
  lfsr := by decide
  noiseTimer := by decide
  bits := by decide
  dmcTimer := by decide
  sampleAddr := by decide
  sampleLen := by decide
  bytes := by decide
  fsFour := by decide
  fsFive := by decide

theorem Pads.rangeOk_reset : Pads.reset.RangeOk := fun h => absurd h Bool.false_ne_true

theorem State.devicesOk_resetOp (s : State) : (resetOp s).DevicesOk := by
  rw [resetOp_eq]
  exact ⟨Ppu.rangeOk_resetWith _ _ _, Apu.rangeOk_reset, Pads.rangeOk_reset⟩

/-- No fault, nothing to name. -/
theorem State.faultOk_of_none {s : State} (h : s.ctl.fault = none) : s.FaultOk := fun f hf => by
  rw [h] at hf
  cases hf

end Sys2Proof.Machine

namespace Sys2Proof

open Sys2Proof.Machine

/-- Settles O57: power-on gives memories in order, a reset keeps them so and puts the devices in range. -/
theorem resetMachinesMeetTheInvariants : Obligations.ResetMachinesMeetTheInvariants := by
  refine ⟨⟨State.memOk_reset, ?_, State.faultOk_of_none rfl⟩, fun img s hload => ?_⟩
  · exact ⟨Ppu.rangeOk_resetWith _ _ _, Apu.rangeOk_reset, Pads.rangeOk_reset⟩
  · obtain ⟨c, hc, rfl⟩ := loadImage_eq_ok hload
    exact ⟨(State.memOk_powerOn hc).resetOp, State.devicesOk_resetOp _, State.faultOk_of_none (resetOp_fault _)⟩

end Sys2Proof
end

section
/-! The opcode map in both directions (30_encoding.md §7): what `encode` gives for the instructions of each form, and from it
that decoding undoes encoding, that encoding undoes decoding, and which opcodes are illegal. -/

namespace Sys2Proof.Laws.RoundTrip

/-- The round trip of every instruction, from that of its constructor, in the order of `Instr`. -/
theorem statement (i : Instr) : Statement i := by
  cases i
  exacts [
    ldaIzx _, ldaZp _, ldaImm _, ldaAbs _, ldaIzy _, ldaZpx _, ldaAby _, ldaAbx _, ldxImm _, ldxZp _, ldxAbs _, ldxZpy _,
    ldxAby _, ldyImm _, ldyZp _, ldyAbs _, ldyZpx _, ldyAbx _, staIzx _, staZp _, staAbs _, staIzy _, staZpx _, staAby _,
    staAbx _, stxZp _, stxAbs _, stxZpy _, styZp _, styAbs _, styZpx _, tax, tay, txa, tya, tsx, txs,
    pha, php, pla, plp,
    adcIzx _, adcZp _, adcImm _, adcAbs _, adcIzy _, adcZpx _, adcAby _, adcAbx _, sbcIzx _, sbcZp _, sbcImm _, sbcAbs _,
    sbcIzy _, sbcZpx _, sbcAby _, sbcAbx _, cmpIzx _, cmpZp _, cmpImm _, cmpAbs _, cmpIzy _, cmpZpx _, cmpAby _,
    cmpAbx _, cpxImm _, cpxZp _, cpxAbs _, cpyImm _, cpyZp _, cpyAbs _, incZp _, incAbs _, incZpx _, incAbx _, decZp _,
    decAbs _, decZpx _, decAbx _, inx, iny, dex, dey,
    andIzx _, andZp _, andImm _, andAbs _, andIzy _, andZpx _, andAby _, andAbx _, oraIzx _, oraZp _, oraImm _, oraAbs _,
    oraIzy _, oraZpx _, oraAby _, oraAbx _, eorIzx _, eorZp _, eorImm _, eorAbs _, eorIzy _, eorZpx _, eorAby _,
    eorAbx _, bitZp _, bitAbs _, aslZp _, aslAcc, aslAbs _, aslZpx _, aslAbx _, lsrZp _, lsrAcc, lsrAbs _, lsrZpx _,
    lsrAbx _, rolZp _, rolAcc, rolAbs _, rolZpx _, rolAbx _, rorZp _, rorAcc, rorAbs _, rorZpx _, rorAbx _,
    bcc _, bcs _, beq _, bne _, bmi _, bpl _, bvc _, bvs _, jmpAbs _, jmpInd _, jsr _, rts, brk, rti,
    clc, sec, cli, sei, cld, sed, clv, nop]

end Sys2Proof.Laws.RoundTrip

namespace Sys2Proof

open Sys2Proof.Machine

/-! ### The two tables agree -/

/-- The encoder writes the opcode `op` for the instructions of the form, and the operand's bytes after it (R300). -/
def Form.EncodesAs (op : Byte) (f : Form) : Prop :=
  match f with
  | .f1 i => encode i = [op]
  | .f2 mk => encode ∘ mk = fun n => [op, n]
  | .f3 mk => encode ∘ mk = encode3 op

/-- Row by row: the opcode that selects a form is the one the encoder writes for it. -/
theorem encodesAs_of_formOf {k : Nat} {f : Form} (h : formOf k = some f) : f.EncodesAs (BitVec.ofNat 8 k) := by
  unfold formOf at h
  split at h <;> cases h
  all_goals exact rfl

theorem encodesAs_of_formOf_toNat {b : Byte} {f : Form} (h : formOf b.toNat = some f) : f.EncodesAs b := by
  have henc := encodesAs_of_formOf h
  rwa [BitVec.ofNat_toNat, BitVec.setWidth_eq] at henc

/-- A word's two bytes, the low one first, are the operand of format F3. -/
theorem encode3_wordOf (op hi lo : Byte) : encode3 op (wordOf hi lo) = [op, lo, hi] := by simp [encode3]

/-- The encoder's rows have the length of their mode (R302). -/
theorem length_encode (i : Instr) : (encode i).length = i.mode.length := by cases i <;> rfl

/-! ### The illegal opcodes -/

/-- The list of §7 is in ascending order and names the opcodes for which the map has no form: the Boolean comparison of the two
lists evaluates. -/
theorem filter_formOf_isNone : ((List.range 256).filter fun k => (formOf k).isNone) = illegalOpcodes :=
  eq_of_beq (by rfl)

theorem mem_illegalOpcodes_iff {k : Nat} (hk : k < 256) : k ∈ illegalOpcodes ↔ formOf k = none := by
  simp [← filter_formOf_isNone, hk]

theorem nodup_illegalOpcodes : illegalOpcodes.Nodup := by
  rw [← filter_formOf_isNone]
  exact List.nodup_range.filter _

theorem length_official_opcodes : ((List.range 256).filter fun k => (formOf k).isSome).length = 151 := by rfl

/-- A byte string is rejected by the name of its opcode exactly when no form has that opcode. -/
theorem decode_eq_illegal_iff (b : Byte) (rest : List Byte) :
    decode (b :: rest) = .error (.illegalOpcode b) ↔ formOf b.toNat = none := by
  refine ⟨fun h => ?_, fun h => decode_illegal h rest⟩
  simp only [decode] at h
  split at h
  · assumption
  all_goals cases h

/-- Settles O1: the round trip of each constructor. -/
theorem decodeOfEncodeGivesInstruction : Obligations.DecodeOfEncodeGivesInstruction := Laws.RoundTrip.statement

/-- Settles O2: a successful decode read an opcode and the operand bytes of its form, and these are what the encoder writes
for an instruction of that form. -/
theorem decodedBytesAreTheEncoding : Obligations.DecodedBytesAreTheEncoding := by
  intro bs rest i h
  rcases decode_cases h with ⟨b, hform, rfl⟩ | ⟨b, mk, n, hform, rfl, rfl⟩ | ⟨b, mk, lo, hi, hform, rfl, rfl⟩
  · have henc : encode i = [b] := encodesAs_of_formOf_toNat hform
    rw [henc]; rfl
  · have henc : encode (mk n) = [b, n] := congrFun (encodesAs_of_formOf_toNat hform) n
    rw [henc]; rfl
  · have henc : encode (mk (wordOf hi lo)) = encode3 b (wordOf hi lo) := congrFun (encodesAs_of_formOf_toNat hform) _
    rw [henc, encode3_wordOf]; rfl

/-- Settles O3: the list of illegal opcodes is the map's, and the lengths are those of the encoder's rows. -/
theorem opcodeMapIsTotal : Obligations.OpcodeMapIsTotal :=
  ⟨fun b rest => (mem_illegalOpcodes_iff b.isLt).trans (decode_eq_illegal_iff b rest).symm,
    rfl, nodup_illegalOpcodes, length_official_opcodes, length_encode⟩

end Sys2Proof
end

section
/-! The addresses of the modes (30_encoding.md R323 to R331) in numbers: an indexed sum, a pointer of page zero. -/

namespace Sys2Proof.Machine

/-! ### An indexed address -/

theorem Ea.indexed_addr_toNat (base : Word) (i : Byte) :
    (Ea.indexed base i).addr.toNat = (base.toNat + i.toNat) % 65536 := by simp [Ea.indexed]

theorem page_ne_iff (a b : Word) : page a ≠ page b ↔ a.toNat / 256 ≠ b.toNat / 256 := by
  simp [page, ← BitVec.toNat_inj]

/-- An indexed address crosses a page when its high byte differs from the base's (R327, R328, R331). -/
theorem Ea.indexed_crossed_iff (base : Word) (i : Byte) :
    (Ea.indexed base i).crossed = true ↔ (base.toNat + i.toNat) % 65536 / 256 ≠ base.toNat / 256 := by
  rw [← Ea.indexed_addr_toNat, ← page_ne_iff]
  exact bne_iff_ne

/-! ### A pointer of page zero -/

theorem zeroPage_eq_ofNat (p : Byte) : zeroPage p = BitVec.ofNat 16 p.toNat := by
  apply BitVec.eq_of_toNat_eq
  have := p.isLt
  rw [zeroPage_toNat, BitVec.toNat_ofNat]
  omega

/-- The byte of page zero at `k`, as a number. -/
def State.zeroByte (s : State) (k : Nat) : Nat := (s.peek (BitVec.ofNat 16 k)).toNat

/-- The word at `k` of page zero, as a number: its high byte stands after the low one, in the same page. -/
def State.zeroWord (s : State) (k : Nat) : Nat := s.zeroByte k + 256 * s.zeroByte ((k + 1) % 256)

/-- A pointer is two reads of page zero, the low byte's first (R203, R330, R331). -/
theorem pointer_eq_peek (p : Byte) (s : State) :
    pointer p s =
      (wordOf (s.peek (zeroPage (p + 1))) (s.peek (zeroPage p)),
        { s with
          busLatch := s.peek (zeroPage (p + 1))
          trace :=
            s.event .read (zeroPage (p + 1)) (s.peek (zeroPage (p + 1))) ::
              s.event .read (zeroPage p) (s.peek (zeroPage p)) :: s.trace }) :=
  have hlow (q : Byte) : (zeroPage q).toNat < 0x2000 := by rw [zeroPage_toNat]; exact q.isLt.trans (by decide)
  read16_storage (.inl (hlow p)) (.inl (hlow (p + 1)))

theorem pointer_toNat (p : Byte) (s : State) : (pointer p s).1.toNat = s.zeroWord p.toNat := by
  have hnext : (p.toNat + 1) % 256 = (p + 1).toNat := by simp
  rw [pointer_eq_peek, wordOf_toNat, State.zeroWord, State.zeroByte, State.zeroByte, hnext, ← zeroPage_eq_ofNat,
    ← zeroPage_eq_ofNat]
  omega

/-- Reading a pointer delivers two events and sets the latch, nothing else. -/
theorem pointer_events (p : Byte) (s : State) :
    ∃ e f : BusEvent,
      e.kind = .read ∧ e.address.toNat = p.toNat ∧ f.kind = .read ∧ f.address.toNat = (p.toNat + 1) % 256 ∧
      (pointer p s).2 = { s with busLatch := f.value, trace := f :: e :: s.trace } :=
  ⟨s.event .read (zeroPage p) (s.peek (zeroPage p)), s.event .read (zeroPage (p + 1)) (s.peek (zeroPage (p + 1))),
    rfl, zeroPage_toNat p, rfl, by simp [State.event], congrArg Prod.snd (pointer_eq_peek p s)⟩

@[simp] theorem pointer_regs (p : Byte) (s : State) : (pointer p s).2.regs = s.regs := by rw [pointer_eq]

end Sys2Proof.Machine

namespace Sys2Proof

open Sys2Proof.Machine

/-- Settles O25: the sums of a byte wrap in page zero, those of a word at the top of the address space. -/
theorem directModesAddress : Obligations.DirectModesAddress := by
  intro s n w
  refine ⟨by simp [MemMode.ea], zeroPage_toNat n, ?_, ?_, rfl, by simp [MemMode.ea, Ea.plain],
    Ea.indexed_addr_toNat w _, Ea.indexed_addr_toNat w _, Ea.indexed_crossed_iff w _, Ea.indexed_crossed_iff w _⟩
  · exact (zeroPage_toNat _).trans (BitVec.toNat_add n s.regs.x)
  · exact (zeroPage_toNat _).trans (BitVec.toNat_add n s.regs.y)

/-- Settles O26: (zp,X) is the pointer at the zero-page sum, (zp),Y the pointer at the operand indexed by Y. -/
theorem indirectModesAddress : Obligations.IndirectModesAddress := by
  intro s n zero word p
  have hp : (n + s.regs.x).toNat = p := BitVec.toNat_add n s.regs.x
  have hizx : (pointer (n + s.regs.x) s).1.toNat = word p := by rw [← hp]; exact pointer_toNat _ s
  have hizy : (pointer n s).1.toNat = word n.toNat := pointer_toNat n s
  have hea : (MemMode.izy n).ea s = (Ea.indexed (pointer n s).1 s.regs.y, (pointer n s).2) := by
    rw [MemMode.ea, pointer_regs]
  refine ⟨hizx, rfl, ?_, ?_, ?_⟩
  · rw [hea, ← hizy]; exact Ea.indexed_addr_toNat _ _
  · rw [hea, ← hizy]; exact Ea.indexed_crossed_iff _ _
  · simp only [List.forall_mem_cons, List.not_mem_nil, false_implies, implies_true, and_true, ← hp]
    exact ⟨pointer_events (n + s.regs.x) s, pointer_events n s⟩

end Sys2Proof
end

section
/-! The step that executes an instruction (30_encoding.md R301, R339, R340): what the fetch gives for the bytes it reads, the
step on bytes that decode, the step on an illegal opcode. -/

namespace Sys2Proof.Machine

/-! ### The fetch, by the form of the byte at PC -/

theorem fetchInstr_f1 {s : State} {i : Instr} (h : formOf (fetch s).1.toNat = some (.f1 i)) :
    fetchInstr s = .ok i (fetchSeq 1 s).2 := by
  simp only [fetchInstr, busRead_fst, ← fetch_fst, h]
  rfl

theorem fetchInstr_f2 {s : State} {mk : Byte → Instr} (h : formOf (fetch s).1.toNat = some (.f2 mk)) :
    fetchInstr s = .ok (mk (fetch (fetch s).2).1) (fetchSeq 2 s).2 := by
  simp only [fetchInstr, busRead_fst, ← fetch_fst, h]
  rfl

theorem fetchInstr_f3 {s : State} {mk : Word → Instr} (h : formOf (fetch s).1.toNat = some (.f3 mk)) :
    fetchInstr s =
      .ok (mk (wordOf (fetch (fetch (fetch s).2).2).1 (fetch (fetch s).2).1)) (fetchSeq 3 s).2 := by
  simp only [fetchInstr, busRead_fst, ← fetch_fst, h]
  rfl

theorem fetchInstr_illegal {s : State} (h : formOf (s.peek s.regs.pc).toNat = none) :
    fetchInstr s = .illegal { op := s.peek s.regs.pc, addr := s.regs.pc } (busRead s.regs.pc s).2 := by
  simp only [fetchInstr, busRead_fst, h]

/-! ### Bytes that decode -/

theorem fetchSeq_length (k : Nat) (s : State) : (fetchSeq k s).1.length = k := by
  induction k generalizing s with
  | zero => rfl
  | succ k ih => exact congrArg (· + 1) (ih _)

/-- The fetch of a step reads the bytes the decoder needs and gives what the decoder gives (R301). -/
theorem fetchInstr_of_decode {k : Nat} {s : State} {i : Instr} (h : decode (fetchSeq k s).1 = .ok (i, [])) :
    fetchInstr s = .ok i (fetchSeq k s).2 := by
  have hlength := fetchSeq_length k s
  rcases decode_cases h with ⟨b, hform, hbytes⟩ | ⟨b, mk, n, hform, rfl, hbytes⟩ | ⟨b, mk, lo, hi, hform, rfl, hbytes⟩ <;>
    rw [hbytes] at hlength <;> subst hlength <;> cases hbytes
  · exact fetchInstr_f1 hform
  · exact fetchInstr_f2 hform
  · exact fetchInstr_f3 hform

/-! ### The step -/

theorem step_of_poll_instruction {s : State} (h : s.poll = .instruction) : step s = instructionStep s := by
  rw [step, h]

theorem instructionStep_of_fetched {s t u : State} {i : Instr} (hfetch : fetchInstr s.startStep = .ok i t)
    (hexec : exec i t.payStall = .next u) : instructionStep s = .next (finishStep .instruction u) := by
  simp only [instructionStep, hfetch, hexec]

theorem instructionStep_of_illegal {s t : State} {f : IllegalOp} (hfetch : fetchInstr s.startStep = .illegal f t) :
    instructionStep s = .next (t.raise f) := by
  simp only [instructionStep, hfetch]

/-- While the fault register is set a step reports it (R711). -/
theorem step_of_fault {s : State} {f : IllegalOp} (h : s.ctl.fault = some f) :
    step s = .fault (.illegalOpcode f.op f.addr) := by
  simp only [step, State.poll, h]

/-! ### The byte at PC as the step starts -/

/-- The start of a step changes nothing a read depends on. -/
@[simp] theorem State.startStep_peek (s : State) (a : Word) : s.startStep.peek a = s.peek a := by
  unfold State.peek readRegion
  split <;> rfl

end Sys2Proof.Machine

namespace Sys2Proof

open Sys2Proof.Machine

/-- Settles O5: the fetch agrees with the decoder, and every instruction answers a next state. -/
theorem stepRunsDecodedInstruction : Obligations.StepRunsDecodedInstruction := by
  intro s i k hpoll hdecode
  obtain ⟨u, hexec⟩ := exec_next i (fetchSeq k s.startStep).2.payStall
  refine ⟨u, hexec, ?_⟩
  rw [step_of_poll_instruction hpoll]
  exact instructionStep_of_fetched (fetchInstr_of_decode hdecode) hexec

/-- Settles O30: the raising step is one bus read at PC from the started step, with the fault register set. -/
theorem illegalOpcodeFaults : Obligations.IllegalOpcodeFaults := by
  intro s hpoll hillegal f
  have hform : formOf (s.startStep.peek s.regs.pc).toNat = none := by
    rw [State.startStep_peek]
    exact (mem_illegalOpcodes_iff (BitVec.isLt _)).mp hillegal
  have hstep : step s = .next ((busRead s.regs.pc s.startStep).2.raise f) := by
    rw [step_of_poll_instruction hpoll, instructionStep_of_illegal (fetchInstr_illegal hform), State.startStep_peek]
    rfl
  have hreads := OnlyReads.busRead s.regs.pc s.startStep
  refine ⟨_, hstep, busRead_regs s.regs.pc s.startStep, ?_, ?_, fun hdevice => ?_, ?_, step_of_fault rfl, resetOp_fault _⟩
  · simp only [State.raise, busRead_ctl, State.startStep_ctl]
  · exact ⟨rfl, hreads.ram, hreads.cart, hreads.ppu, hreads.apu, hreads.pads, hreads.inputs⟩
  · obtain ⟨hppu, hapu, hpads⟩ := SameDevices.busRead s.startStep hdevice
    exact ⟨hppu, hapu, hpads⟩
  · refine ⟨s.startStep.event .read s.regs.pc f.op, rfl, rfl, rfl, ?_⟩
    have htrace := busRead_trace s.regs.pc s.startStep
    rwa [State.startStep_peek] at htrace

end Sys2Proof
end

section
/-! Instructions by their rows in the opcode table: from one equation for the meaning of a row, what the statements about the
read and the write class say of it (30_encoding.md R335, R336; 70_reset_and_hazards.md R1011), and Z and N in numbers. -/

namespace Sys2Proof.Machine

/-! ### Z and N in numbers -/

theorem Byte.beq_zero (v : Byte) : (v == 0) = decide (v.toNat = 0) := by
  rw [Bool.beq_eq_decide_eq]
  exact decide_eq_decide.mpr BitVec.toNat_inj.symm

theorem Byte.bitAt_seven (v : Byte) : bitAt v 7 = decide (128 ≤ v.toNat) := BitVec.msb_eq_decide v

/-- `SetNZ` (00_scope.md R16). -/
theorem Flags.setNZ_eq_nzOf (p : Flags) (v : Byte) : p.setNZ v = nzOf p v := by
  rw [Flags.setNZ, Byte.beq_zero, Byte.bitAt_seven, nzOf]

/-! ### The start of an instruction -/

theorem OnlyReads.begin (s : State) (base : Nat) : OnlyReads s (s.begin base) := OnlyReads.of_eq rfl rfl rfl rfl rfl rfl rfl

theorem SameDevices.begin (s : State) (base : Nat) : SameDevices s (s.begin base) := ⟨rfl, rfl, rfl⟩

theorem OnlyReads.setRegs {s t : State} (h : OnlyReads s t) (r : Regs) : OnlyReads s { t with regs := r } :=
  ⟨h.ctl, h.ram, h.cart, h.ppu, h.apu, h.pads, h.inputs⟩

theorem SameDevices.setRegs {s t : State} (h : SameDevices s t) (r : Regs) : SameDevices s { t with regs := r } :=
  ⟨h.ppu, h.apu, h.pads⟩

/-- The row of the opcode table with this opcode and this base count has the meaning `op` in the state `s`. -/
def RowMeans (i : Instr) (opcode : Byte) (base : Nat) (op : State → State) (s : State) : Prop :=
  (encode i).head? = some opcode ∧ exec i s = .next (op (s.begin base))

/-! ### The read class -/

@[simp] theorem ReadOp.get_regs (o : ReadOp) (s : State) : (o.get s).2.regs = s.regs := (ReadOp.get_frame o s).1

/-- A row whose meaning is its operand read, then a change of the registers alone, runs as a read-class instruction. -/
theorem ReadRow.runs_of_means {r : ReadRow} {op : ReadOp → State → State} {after : Byte → Regs} {s : State}
    (hrow : RowMeans r.instr r.opcode r.cycles (op r.operand) s)
    (hop : ∀ o k, op o (s.begin k) = { (o.get (s.begin k)).2 with regs := after (o.get (s.begin k)).1 }) :
    r.Runs after s := by
  obtain ⟨hopcode, hexec⟩ := hrow
  obtain ⟨-, hctl, hget⟩ := ReadOp.get_frame r.operand (s.begin r.cycles)
  have hreads := ((OnlyReads.begin s r.cycles).trans hget).setRegs (after (r.operand.get (s.begin r.cycles)).1)
  rw [hop] at hexec
  refine ⟨hopcode, _, hexec, rfl, congrArg Control.stepCycles hctl, rfl, hreads, fun _ => hreads.peek, fun hdevice => ?_⟩
  exact ((SameDevices.begin s r.cycles).trans (ReadOp.get_devices _ _ hdevice)).setRegs _

/-! ### The write class -/

theorem State.MemOk.ea {s : State} (h : s.MemOk) (m : MemMode) : (m.ea s).2.MemOk :=
  State.stepStable_memOk.ea m h

theorem State.MemOk.begin {s : State} (h : s.MemOk) (base : Nat) : (s.begin base).MemOk :=
  State.stepStable_memOk.begin base h

/-- A row whose meaning is the byte `v` put at its mode's address runs as a store. -/
theorem WriteRow.runs_of_means {r : WriteRow} {v : Byte} {s : State} (hs : s.MemOk)
    (hrow : RowMeans r.instr r.opcode r.cycles (r.mode.put v) s) : r.Runs v s := by
  obtain ⟨hopcode, hexec⟩ := hrow
  obtain ⟨hstored, hregs⟩ := busWriteByRegion (r.mode.ea (s.begin r.cycles)).1.addr v _ ((hs.begin r.cycles).ea r.mode)
  refine ⟨hopcode, _, hexec, ?_, ?_, ?_, hstored, fun hne => ?_, fun haddr => ?_⟩
  · exact hregs.trans (MemMode.ea_regs _ _)
  · exact (OnlyReads.begin s r.cycles).trans (OnlyReads.ea _ _)
  · exact (SameDevices.begin s r.cycles).trans (SameDevices.ea _ _)
  · obtain ⟨-, hcycles, -⟩ := hstored.event hne
    rw [MemMode.put, hcycles, MemMode.ea_ctl]
    rfl
  · rw [MemMode.put, haddr]

end Sys2Proof.Machine
end

section
/-! Loads, stores and transfers (40_load_store_transfer.md R400 to R412): the meanings of their rows and the three statements. -/

namespace Sys2Proof.Machine

/-! ### Loads -/

theorem opLda_eq (o : ReadOp) (s : State) :
    opLda o s =
      { (o.get s).2 with regs := { s.regs with a := (o.get s).1, p := nzOf s.regs.p (o.get s).1 } } := by
  simp only [opLda, State.setA, State.setP, ReadOp.get_regs, Flags.setNZ_eq_nzOf]

theorem opLdx_eq (o : ReadOp) (s : State) :
    opLdx o s =
      { (o.get s).2 with regs := { s.regs with x := (o.get s).1, p := nzOf s.regs.p (o.get s).1 } } := by
  simp only [opLdx, State.setX, State.setP, ReadOp.get_regs, Flags.setNZ_eq_nzOf]

theorem opLdy_eq (o : ReadOp) (s : State) :
    opLdy o s =
      { (o.get s).2 with regs := { s.regs with y := (o.get s).1, p := nzOf s.regs.p (o.get s).1 } } := by
  simp only [opLdy, State.setY, State.setP, ReadOp.get_regs, Flags.setNZ_eq_nzOf]

theorem ldaRows_mean (s : State) (n : Byte) (w : Word) :
    ∀ r ∈ ldaRows n w, RowMeans r.instr r.opcode r.cycles (opLda r.operand) s := by
  intro r hr
  fin_cases hr <;> exact ⟨rfl, rfl⟩

theorem ldxRows_mean (s : State) (n : Byte) (w : Word) :
    ∀ r ∈ ldxRows n w, RowMeans r.instr r.opcode r.cycles (opLdx r.operand) s := by
  intro r hr
  fin_cases hr <;> exact ⟨rfl, rfl⟩

theorem ldyRows_mean (s : State) (n : Byte) (w : Word) :
    ∀ r ∈ ldyRows n w, RowMeans r.instr r.opcode r.cycles (opLdy r.operand) s := by
  intro r hr
  fin_cases hr <;> exact ⟨rfl, rfl⟩

/-! ### Stores: the register's value is that at the start of the instruction -/

theorem staRows_mean (s : State) (n : Byte) (w : Word) :
    ∀ r ∈ staRows n w, RowMeans r.instr r.opcode r.cycles (r.mode.put s.regs.a) s := by
  intro r hr
  fin_cases hr <;> exact ⟨rfl, rfl⟩

theorem stxRows_mean (s : State) (n : Byte) (w : Word) :
    ∀ r ∈ stxRows n w, RowMeans r.instr r.opcode r.cycles (r.mode.put s.regs.x) s := by
  intro r hr
  fin_cases hr <;> exact ⟨rfl, rfl⟩

theorem styRows_mean (s : State) (n : Byte) (w : Word) :
    ∀ r ∈ styRows n w, RowMeans r.instr r.opcode r.cycles (r.mode.put s.regs.y) s := by
  intro r hr
  fin_cases hr <;> exact ⟨rfl, rfl⟩

end Sys2Proof.Machine

namespace Sys2Proof

open Sys2Proof.Machine

/-- Settles O9: every load is its operand read, then the register and the flags written. -/
theorem loadsSetRegisterAndFlags : Obligations.LoadsSetRegisterAndFlags := fun s n w =>
  ⟨fun r hr => ReadRow.runs_of_means (ldaRows_mean s n w r hr) fun o _ => opLda_eq o _,
    fun r hr => ReadRow.runs_of_means (ldxRows_mean s n w r hr) fun o _ => opLdx_eq o _,
    fun r hr => ReadRow.runs_of_means (ldyRows_mean s n w r hr) fun o _ => opLdy_eq o _⟩

/-- Settles O13: every store is the bus write of the register at its mode's address. -/
theorem storesWriteTheirRegister : Obligations.StoresWriteTheirRegister := fun s n w hs =>
  ⟨fun r hr => WriteRow.runs_of_means hs (staRows_mean s n w r hr),
    fun r hr => WriteRow.runs_of_means hs (stxRows_mean s n w r hr),
    fun r hr => WriteRow.runs_of_means hs (styRows_mean s n w r hr)⟩

/-- Settles O16: a transfer is a change of the registers; its flags are those of `SetNZ` in numbers. -/
theorem transfersCopyRegisters : Obligations.TransfersCopyRegisters := by
  intro s
  simp only [← Flags.setNZ_eq_nzOf]
  exact ⟨rfl, rfl, rfl, rfl, rfl, rfl⟩

end Sys2Proof
end

section
/-! The stack instructions PHA, PHP, PLA and PLP (41_stack.md R451 to R454): what one more push adds to the bytes pushed, what one
more pull adds to the reads of storage, and the two statements. -/

namespace Sys2Proof.Machine

/-! ### Pushing -/

@[simp] theorem push_ctl (v : Byte) (s : State) : (push v s).ctl = s.ctl := by rw [push_eq]

theorem push_trace (v : Byte) (s : State) :
    (push v s).trace = s.event .write (stackAddr s.regs.sp) v :: s.trace := by rw [push_eq]

/-- A push leaves every byte of storage but that of its slot. -/
theorem push_peek_other {s : State} (hs : s.MemOk) (v : Byte) {a : Word} (ha : isStorage a = true)
    (hne : ¬ SameCell a (stackAddr s.regs.sp)) : (push v s).peek a = s.peek a := by
  have hslot := stackAddr_lt s.regs.sp
  obtain ⟨hstored, -⟩ := busWriteByRegion (stackAddr s.regs.sp) v s hs
  have hregs : (push v s).peek a = (busWrite (stackAddr s.regs.sp) v s).peek a := by
    rw [push_eq_busWrite]
    exact ((OnlyReads.refl _).setRegs _).peek ha
  have hregion : a.toNat < 0x2000 ∨ 0x6000 ≤ a.toNat := by simpa [isStorage] using ha
  rw [hregs]
  rcases Nat.lt_or_ge a.toNat 0x8000 with hlow | hrom
  · exact hstored.others a (by omega) hne
  · exact hstored.rom (by omega) a hrom

theorem isStorage_stackAddr (sp : Byte) : isStorage (stackAddr sp) = true :=
  isStorage_of_ram_or_cart (.inl (stackAddr_lt sp))

/-- Different stack pointers have different slots: the stack page lies within one mirror of RAM. -/
theorem sameCell_stackAddr_iff (p q : Byte) : SameCell (stackAddr p) (stackAddr q) ↔ p = q := by
  refine ⟨fun h => BitVec.eq_of_toNat_eq ?_, fun h => .inl (by rw [h])⟩
  have hp := p.isLt
  have hq := q.isLt
  rcases h with h | ⟨-, -, h⟩
  · have := congrArg BitVec.toNat h
    simp only [stackAddr_toNat] at this
    omega
  · simp only [stackAddr_toNat] at h
    omega

theorem Byte.sub_ofNat_inj {b : Byte} {j k : Nat} (hj : j < 256) (hk : k < 256)
    (h : b - BitVec.ofNat 8 j = b - BitVec.ofNat 8 k) : j = k := by
  bv_omega

/-- At the start of an instruction nothing has been pushed. -/
theorem Pushed.begin (s : State) (base : Nat) : Pushed [] s (s.begin base) where
  ctl := rfl
  devices := ⟨rfl, rfl, rfl, rfl, rfl⟩
  stored := fun _ _ h => absurd h (by simp)
  others := fun _ ha _ => (OnlyReads.begin s base).peek ha

/-- One more push, while the bytes pushed do not fill the page, is one more byte after them. -/
theorem Pushed.push {bs : List Byte} {s t : State} (h : Pushed bs s t) (ht : t.MemOk)
    (hsp : t.regs.sp = s.regs.sp - BitVec.ofNat 8 bs.length) (hlen : bs.length < 256) (v : Byte) :
    Pushed (bs ++ [v]) s (Machine.push v t) where
  ctl := by rw [push_ctl]; exact h.ctl
  devices := by rw [push_eq]; exact h.devices
  stored := fun j b hb => by
    obtain ⟨hram, -⟩ := ht.ram
    obtain hj | rfl | hj := Nat.lt_trichotomy j bs.length
    · rw [List.getElem?_append_left hj] at hb
      rw [push_peek_other ht v (isStorage_stackAddr _), h.stored j b hb]
      rw [sameCell_stackAddr_iff, hsp]
      exact fun e => hj.ne (Byte.sub_ofNat_inj (by omega) hlen e)
    · obtain rfl : v = b := by simpa using hb
      rw [← hsp]
      exact push_peek hram v
    · rw [List.getElem?_eq_none (by simpa using hj)] at hb
      cases hb
  others := fun a ha hne => by
    rw [List.length_append, List.length_singleton] at hne
    rw [push_peek_other ht v ha (hsp ▸ hne bs.length (by omega))]
    exact h.others a ha fun j hj => hne j (by omega)

/-- An instruction that pushes one byte: the next state of PHA and PHP. -/
theorem push_begin {s : State} (hs : s.MemOk) (v : Byte) (base : Nat) :
    (push v (s.begin base)).regs = { s.regs with sp := s.regs.sp - 1 } ∧ Pushed [v] s (push v (s.begin base)) ∧
      (push v (s.begin base)).ctl.stepCycles = s.ctl.stepCycles + base ∧
      (push v (s.begin base)).trace.length = s.trace.length + 1 := by
  have hsp : s.regs.sp = s.regs.sp - BitVec.ofNat 8 0 := (BitVec.sub_zero _).symm
  refine ⟨push_regs v _, (Pushed.begin s base).push (hs.begin base) hsp (by decide) v, ?_, ?_⟩
  · rw [push_ctl]; rfl
  · rw [push_trace]; rfl

/-! ### Pulling -/

theorem ReadStorage.begin (s : State) (base : Nat) : ReadStorage 0 base s (s.begin base) :=
  ⟨rfl, ⟨rfl, rfl, rfl, rfl, rfl, rfl⟩, rfl, rfl⟩

theorem ReadStorage.setRegs {n k : Nat} {s t : State} (h : ReadStorage n k s t) (r : Regs) :
    ReadStorage n k s { t with regs := r } := ⟨h.ctl, h.rest, h.events⟩

/-- Reads of storage leave every byte of storage as it was. -/
theorem ReadStorage.peek {n k : Nat} {s t : State} (h : ReadStorage n k s t) {a : Word} (ha : isStorage a = true) :
    t.peek a = s.peek a := by
  obtain ⟨hram, hcart, -⟩ := h.rest
  exact State.peek_congr hram hcart ha

/-- A pull is one more read of storage. -/
theorem ReadStorage.pull {n k : Nat} {s t : State} (h : ReadStorage n k s t) :
    ReadStorage (n + 1) k s (Machine.pull t).2 := by
  obtain ⟨hlength, hdrop⟩ := h.events
  rw [pull_eq]
  exact ⟨h.ctl, h.rest, congrArg (· + 1) hlength, hdrop⟩

/-- The byte a pull gives after `j` pulls is the one at `S + (j + 1)` before them. -/
theorem ReadStorage.pull_fst {n k : Nat} {s t : State} (h : ReadStorage n k s t) {j : Nat}
    (hsp : t.regs.sp = s.regs.sp + BitVec.ofNat 8 j) : (Machine.pull t).1 = s.stackPeek (j + 1) := by
  have hnext : t.regs.sp + 1 = s.regs.sp + BitVec.ofNat 8 (j + 1) := by rw [hsp]; bv_omega
  rw [Machine.pull_fst, h.peek (isStorage_stackAddr _), hnext, State.stackPeek]

/-- The byte an instruction that pulls once pulls: that of PLA and PLP. -/
theorem pull_begin_fst (s : State) (base : Nat) : (pull (s.begin base)).1 = s.stackPeek 1 :=
  (ReadStorage.begin s base).pull_fst (BitVec.add_zero s.regs.sp).symm

end Sys2Proof.Machine

namespace Sys2Proof

open Sys2Proof.Machine

/-- Settles O19: both are one push of a byte taken at the start of the instruction. -/
theorem pushInstructions : Obligations.PushInstructions := fun s hs =>
  ⟨⟨_, rfl, push_begin hs s.regs.a 3⟩, ⟨_, rfl, push_begin hs (s.regs.p.pushed true) 3⟩⟩

/-- Settles O20: both are one pull, then a change of the registers by the pulled byte. -/
theorem pullInstructions : Obligations.PullInstructions := by
  intro s
  have hpull := (ReadStorage.begin s 4).pull
  refine ⟨⟨_, rfl, hpull.setRegs _, ?_⟩, ⟨_, rfl, hpull.setRegs _, ?_⟩⟩
  · simp only [State.setP, State.setA, pull_regs, pull_begin_fst, Flags.setNZ_eq_nzOf]
    rfl
  · simp only [State.setP, pull_regs, pull_begin_fst, Flags.ofByte_eq_flagBits]
    rfl

end Sys2Proof
end

section
/-! Arithmetic, compare, increment and decrement (42_arithmetic.md R500 to R514): `AddC` in exact integers, what a
read-modify-write row does, the meanings of the rows and the five statements. -/

namespace Sys2Proof.Machine

/-! ### `AddC` in exact integers -/

theorem Byte.getLsbD_seven (v : Byte) : v.getLsbD 7 = decide (128 ≤ v.toNat) := Byte.bitAt_seven v

theorem boolNat_le (c : Bool) : boolNat c ≤ 1 := by
  rw [boolNat_eq_toNat]
  exact c.toNat_le

theorem addByte_toNat (a m : Byte) (c : Bool) : (addByte a m c).toNat = (a.toNat + m.toNat + boolNat c) % 256 :=
  BitVec.toNat_ofNat _ _

theorem addCarry_iff (a m : Byte) (c : Bool) : addCarry a m c = true ↔ 255 < a.toNat + m.toNat + boolNat c :=
  decide_eq_true_iff

/-- Overflow by the sign bits: the operands have one sign and the result the other. -/
theorem addOverflow_iff_signs (a m : Byte) (c : Bool) :
    addOverflow a m c = true ↔
      a.getLsbD 7 = m.getLsbD 7 ∧ (addByte a m c).getLsbD 7 ≠ a.getLsbD 7 := by
  simp only [addOverflow, bitAt, BitVec.getLsbD_and, BitVec.getLsbD_not, BitVec.getLsbD_xor, Nat.reduceLT, decide_true,
    Bool.true_and, Bool.and_eq_true, Bool.not_eq_true', bne_eq_false_iff_eq, bne_iff_ne, ne_comm]

/-- Overflow by the signed sum: it is outside -128..127. -/
theorem addOverflow_iff_signed (a m : Byte) (c : Bool) :
    addOverflow a m c = true ↔
      a.toInt + m.toInt + (boolNat c : Int) < -128 ∨ 127 < a.toInt + m.toInt + (boolNat c : Int) := by
  have ha := a.isLt
  have hm := m.isLt
  have hc := boolNat_le c
  rw [addOverflow_iff_signs, Byte.getLsbD_seven, Byte.getLsbD_seven, Byte.getLsbD_seven, addByte_toNat, ne_eq,
    decide_eq_decide, decide_eq_decide, BitVec.toInt_eq_toNat_cond a, BitVec.toInt_eq_toNat_cond m]
  split <;> split <;> omega

/-! ### Addition and subtraction of bytes -/

theorem Byte.eq_ofInt {v : Byte} {k : Int} (h : (v.toNat : Int) = k % 256) : v = BitVec.ofInt 8 k := by
  apply BitVec.eq_of_toNat_eq
  rw [BitVec.toNat_ofInt]
  omega

theorem addByte_eq_ofInt (a m : Byte) (c : Bool) :
    addByte a m c = BitVec.ofInt 8 ((a.toNat : Int) + m.toNat + boolNat c) :=
  Byte.eq_ofInt (by rw [addByte_toNat]; omega)

theorem addCarry_eq_decide (a m : Byte) (c : Bool) :
    addCarry a m c = decide (255 < (a.toNat : Int) + m.toNat + boolNat c) :=
  decide_eq_decide.mpr (by omega)

theorem addOverflow_eq_decide (a m : Byte) (c : Bool) :
    addOverflow a m c =
      decide (a.toInt + m.toInt + (boolNat c : Int) < -128 ∨ 127 < a.toInt + m.toInt + (boolNat c : Int)) := by
  rw [Bool.eq_iff_iff, decide_eq_true_iff]
  exact addOverflow_iff_signed a m c

theorem Byte.toNat_not (m : Byte) : ((~~~m).toNat : Int) = 255 - m.toNat := by
  have := m.isLt
  rw [BitVec.toNat_not]
  omega

theorem Byte.toInt_not (m : Byte) : (~~~m).toInt = -1 - m.toInt := by
  have := Byte.toNat_not m
  rw [BitVec.toInt_eq_toNat_cond, BitVec.toInt_eq_toNat_cond]
  split <;> split <;> omega

/-- Adding the complement subtracts, with the carry as the absent borrow (R502). -/
theorem addByte_not (a m : Byte) (c : Bool) :
    addByte a (~~~m) c = BitVec.ofInt 8 ((a.toNat : Int) - m.toNat - (1 - boolNat c)) := by
  apply Byte.eq_ofInt
  have := Byte.toNat_not m
  rw [addByte_toNat]
  omega

theorem addCarry_not (a m : Byte) (c : Bool) :
    addCarry a (~~~m) c = decide (0 ≤ (a.toNat : Int) - m.toNat - (1 - boolNat c)) := by
  rw [addCarry_eq_decide, Byte.toNat_not]
  exact decide_eq_decide.mpr (by omega)

theorem addOverflow_not (a m : Byte) (c : Bool) :
    addOverflow a (~~~m) c =
      decide (a.toInt - m.toInt - (1 - boolNat c : Int) < -128 ∨ 127 < a.toInt - m.toInt - (1 - boolNat c : Int)) := by
  rw [addOverflow_eq_decide, Byte.toInt_not]
  exact decide_eq_decide.mpr (by omega)

theorem Flags.afterAdd_eq (p : Flags) (a m : Byte) :
    p.afterAdd a m =
      { nzOf p (addByte a m p.c) with c := addCarry a m p.c, v := addOverflow a m p.c } := by
  rw [Flags.afterAdd, Flags.setNZ_eq_nzOf]
  rfl

/-! ### `Compare` in numbers -/

theorem Byte.beq_eq_decide (r m : Byte) : (r == m) = decide (r.toNat = m.toNat) := by
  rw [Bool.beq_eq_decide_eq]
  exact decide_eq_decide.mpr BitVec.toNat_inj.symm

theorem Byte.toNat_sub_eq (r m : Byte) : (r - m).toNat = (r.toNat + 256 - m.toNat) % 256 := by
  have := m.isLt
  rw [BitVec.toNat_sub]
  omega

theorem Flags.compare_eq_compareFlags (p : Flags) (r m : Byte) : p.compare r m = compareFlags p r m := by
  rw [Flags.compare, Byte.beq_eq_decide, Byte.bitAt_seven, Byte.toNat_sub_eq, compareFlags]

/-! ### One more and one less -/

theorem Byte.add_one_eq (v : Byte) : v + 1 = BitVec.ofNat 8 (v.toNat + 1) := by
  apply BitVec.eq_of_toNat_eq
  simp

theorem Byte.sub_one_eq (v : Byte) : v - 1 = BitVec.ofNat 8 (v.toNat + 255) := by
  apply BitVec.eq_of_toNat_eq
  rw [Byte.toNat_sub_eq, BitVec.toNat_ofNat]
  rfl

/-! ### The read-modify-write class -/

/-- `StoredAt` speaks of no register. -/
theorem StoredAt.setRegs {a : Word} {v : Byte} {s t : State} (h : StoredAt a v s t) (r : Regs) :
    StoredAt a v s { t with regs := r } := by
  have hpeek : ∀ {b : Word}, b.toNat < 0x2000 ∨ 0x6000 ≤ b.toNat → ({ t with regs := r } : State).peek b = t.peek b :=
    fun hb => State.peek_congr (s := t) (t := { t with regs := r }) rfl rfl (isStorage_of_ram_or_cart hb)
  exact { h with
    value := fun ha => by rw [hpeek (by omega)]; exact h.value ha
    others := fun b hb hne => by rw [hpeek (by omega)]; exact h.others b hb hne
    rom := fun ha b hb => by rw [hpeek (by omega)]; exact h.rom ha b hb }

@[simp] theorem busWrite_regs (a : Word) (v : Byte) (s : State) : (busWrite a v s).regs = s.regs := by
  have hplain : (plainWrite a v s).regs = s.regs := (writeRegion_written a v s).frame.1
  unfold busWrite
  split
  · exact (oamDma_frame v _).1.trans hplain
  · exact hplain

/-- What a read-modify-write row on memory means: the byte m becomes `f m`, the flags `flags m` (R337). -/
def MemMode.change (m : MemMode) (f : Byte → Byte) (flags : Byte → Flags) (s : State) : State :=
  ((ModOp.mem m).modify f s).2.setP (flags ((ModOp.mem m).modify f s).1)

@[simp] theorem ModOp.modify_mem_regs (m : MemMode) (f : Byte → Byte) (s : State) :
    ((ModOp.mem m).modify f s).2.regs = s.regs := by
  simp [ModOp.modify]

/-- A row with that meaning runs as a read-modify-write instruction. -/
theorem ModRow.runs_of_means {r : ModRow} {op : MemMode → State → State} {f : Byte → Byte} {flags : Byte → Flags}
    {s : State} (hs : s.MemOk) (hrow : RowMeans r.instr r.opcode r.cycles (op r.mode) s)
    (hop : ∀ m k, op m (s.begin k) = m.change f flags (s.begin k)) : r.Runs f flags s := by
  obtain ⟨hopcode, hexec⟩ := hrow
  have hread : (r.read s).2.MemOk := State.stepStable_memOk.busRead _ ((hs.begin r.cycles).ea r.mode)
  have hregs : (r.read s).2.regs = s.regs := (busRead_regs _ _).trans (MemMode.ea_regs _ _)
  have hctl : (r.read s).2.ctl = (s.begin r.cycles).ctl := (busRead_ctl _ _).trans (MemMode.ea_ctl _ _)
  obtain ⟨hstored, hkept⟩ := busWriteByRegion (r.mode.ea (s.begin r.cycles)).1.addr (f (r.read s).1) _ hread
  rw [hop] at hexec
  refine ⟨hopcode, _, hexec, ?_, ?_, fun hdevice => ?_, hstored.setRegs _, fun hne => ?_, fun haddr => ?_⟩
  · exact congrArg (fun x : Regs => { x with p := flags (r.read s).1 }) (hkept.trans hregs)
  · exact ((OnlyReads.begin s r.cycles).trans (OnlyReads.ea _ _)).trans (OnlyReads.busRead _ _)
  · exact ((SameDevices.begin s r.cycles).trans (SameDevices.ea _ _)).trans (SameDevices.busRead _ hdevice)
  · obtain ⟨-, hcycles, -⟩ := hstored.event hne
    exact hcycles.trans (congrArg Control.stepCycles hctl)
  · rw [← haddr]
    rfl

/-! ### The meanings of the rows -/

theorem opAdc_eq (o : ReadOp) (s : State) :
    opAdc o s =
      { (o.get s).2 with
        regs := { s.regs with
          a := addByte s.regs.a (o.get s).1 s.regs.p.c, p := s.regs.p.afterAdd s.regs.a (o.get s).1 } } := by
  simp only [opAdc, State.setA, State.setP, ReadOp.get_regs]

theorem opSbc_eq (o : ReadOp) (s : State) :
    opSbc o s =
      { (o.get s).2 with
        regs := { s.regs with
          a := addByte s.regs.a (~~~(o.get s).1) s.regs.p.c, p := s.regs.p.afterAdd s.regs.a (~~~(o.get s).1) } } := by
  simp only [opSbc, State.setA, State.setP, ReadOp.get_regs]

theorem opCmp_eq (o : ReadOp) (s : State) :
    opCmp o s =
      { (o.get s).2 with regs := { s.regs with p := compareFlags s.regs.p s.regs.a (o.get s).1 } } := by
  simp only [opCmp, State.setP, ReadOp.get_regs, Flags.compare_eq_compareFlags]

theorem opCpx_eq (o : ReadOp) (s : State) :
    opCpx o s =
      { (o.get s).2 with regs := { s.regs with p := compareFlags s.regs.p s.regs.x (o.get s).1 } } := by
  simp only [opCpx, State.setP, ReadOp.get_regs, Flags.compare_eq_compareFlags]

theorem opCpy_eq (o : ReadOp) (s : State) :
    opCpy o s =
      { (o.get s).2 with regs := { s.regs with p := compareFlags s.regs.p s.regs.y (o.get s).1 } } := by
  simp only [opCpy, State.setP, ReadOp.get_regs, Flags.compare_eq_compareFlags]

theorem opInc_eq (m : MemMode) (s : State) :
    opInc m s =
      m.change (fun v => BitVec.ofNat 8 (v.toNat + 1)) (fun v => nzOf s.regs.p (BitVec.ofNat 8 (v.toNat + 1))) s := by
  simp only [opInc, MemMode.change, ModOp.modify_mem_regs, Flags.setNZ_eq_nzOf, Byte.add_one_eq]

theorem opDec_eq (m : MemMode) (s : State) :
    opDec m s =
      m.change (fun v => BitVec.ofNat 8 (v.toNat + 255)) (fun v => nzOf s.regs.p (BitVec.ofNat 8 (v.toNat + 255))) s := by
  simp only [opDec, MemMode.change, ModOp.modify_mem_regs, Flags.setNZ_eq_nzOf, Byte.sub_one_eq]

theorem adcRows_mean (s : State) (n : Byte) (w : Word) :
    ∀ r ∈ adcRows n w, RowMeans r.instr r.opcode r.cycles (opAdc r.operand) s := by
  intro r hr
  fin_cases hr <;> exact ⟨rfl, rfl⟩

theorem sbcRows_mean (s : State) (n : Byte) (w : Word) :
    ∀ r ∈ sbcRows n w, RowMeans r.instr r.opcode r.cycles (opSbc r.operand) s := by
  intro r hr
  fin_cases hr <;> exact ⟨rfl, rfl⟩

theorem cmpRows_mean (s : State) (n : Byte) (w : Word) :
    ∀ r ∈ cmpRows n w, RowMeans r.instr r.opcode r.cycles (opCmp r.operand) s := by
  intro r hr
  fin_cases hr <;> exact ⟨rfl, rfl⟩

theorem cpxRows_mean (s : State) (n : Byte) (w : Word) :
    ∀ r ∈ cpxRows n w, RowMeans r.instr r.opcode r.cycles (opCpx r.operand) s := by
  intro r hr
  fin_cases hr <;> exact ⟨rfl, rfl⟩

theorem cpyRows_mean (s : State) (n : Byte) (w : Word) :
    ∀ r ∈ cpyRows n w, RowMeans r.instr r.opcode r.cycles (opCpy r.operand) s := by
  intro r hr
  fin_cases hr <;> exact ⟨rfl, rfl⟩

theorem incRows_mean (s : State) (n : Byte) (w : Word) :
    ∀ r ∈ incRows n w, RowMeans r.instr r.opcode r.cycles (opInc r.mode) s := by
  intro r hr
  fin_cases hr <;> exact ⟨rfl, rfl⟩

theorem decRows_mean (s : State) (n : Byte) (w : Word) :
    ∀ r ∈ decRows n w, RowMeans r.instr r.opcode r.cycles (opDec r.mode) s := by
  intro r hr
  fin_cases hr <;> exact ⟨rfl, rfl⟩

end Sys2Proof.Machine

namespace Sys2Proof

open Sys2Proof.Machine

/-- Settles O8: the sum's byte and carry are by definition; the overflow is by the sign bits, and by the signed sum. -/
theorem addCIsExactAddition : Obligations.AddCIsExactAddition := fun a m c =>
  ⟨addByte_toNat a m c, addCarry_iff a m c, rfl, addOverflow_iff_signs a m c, addOverflow_iff_signed a m c⟩

/-- Settles O10: ADC is `AddC` of the operand, SBC `AddC` of its complement, which is subtraction with borrow. -/
theorem addAndSubtractResults : Obligations.AddAndSubtractResults := by
  intro s n w
  refine ⟨fun r hr => ReadRow.runs_of_means (adcRows_mean s n w r hr) fun o k => ?_,
    fun r hr => ReadRow.runs_of_means (sbcRows_mean s n w r hr) fun o k => ?_⟩
  · simp only [opAdc_eq, Flags.afterAdd_eq, addByte_eq_ofInt, addCarry_eq_decide, addOverflow_eq_decide,
      State.begin_regs]
  · simp only [opSbc_eq, Flags.afterAdd_eq, addByte_not, addCarry_not, addOverflow_not, State.begin_regs]

/-- Settles O11: every compare is its operand read, then the flags of `Compare` written. -/
theorem compareResults : Obligations.CompareResults := fun s n w =>
  ⟨fun r hr => ReadRow.runs_of_means (cmpRows_mean s n w r hr) fun o _ => opCmp_eq o _,
    fun r hr => ReadRow.runs_of_means (cpxRows_mean s n w r hr) fun o _ => opCpx_eq o _,
    fun r hr => ReadRow.runs_of_means (cpyRows_mean s n w r hr) fun o _ => opCpy_eq o _⟩

/-- Settles O14: INC and DEC change the byte at their mode's address; one more and one less are additions modulo 256. -/
theorem incrementAndDecrementMemory : Obligations.IncrementAndDecrementMemory := fun s n w hs =>
  ⟨fun r hr => ModRow.runs_of_means hs (incRows_mean s n w r hr) fun m _ => opInc_eq m _,
    fun r hr => ModRow.runs_of_means hs (decRows_mean s n w r hr) fun m _ => opDec_eq m _⟩

/-- Settles O17: each is a change of one index register and of Z and N. -/
theorem indexRegistersStep : Obligations.IndexRegistersStep := by
  intro s up down
  simp only [up, down, ← Byte.add_one_eq, ← Byte.sub_one_eq, ← Flags.setNZ_eq_nzOf]
  exact ⟨rfl, rfl, rfl, rfl⟩

end Sys2Proof
end

section
/-! Logic, bit test, shifts and rotates (43_logic_shift.md R550 to R558): the shifted bytes and the flags in numbers, what a shift
means on memory and on A, the meanings of the rows and the two statements. -/

namespace Sys2Proof.Machine

/-! ### Logic and bit test -/

theorem opLogic_eq (f : Byte → Byte → Byte) (o : ReadOp) (s : State) :
    opLogic f o s =
      { (o.get s).2 with
        regs := { s.regs with a := f s.regs.a (o.get s).1, p := nzOf s.regs.p (f s.regs.a (o.get s).1) } } := by
  simp only [opLogic, State.setA, State.setP, ReadOp.get_regs, Flags.setNZ_eq_nzOf]

theorem Flags.bitTest_eq (p : Flags) (a m : Byte) :
    p.bitTest a m =
      { p with
        z := decide ((a &&& m).toNat = 0), n := decide (m.toNat / 128 = 1), v := decide (m.toNat / 64 % 2 = 1) } := by
  have hseven : m.toNat / 2 ^ 7 % 2 = m.toNat / 128 := by have := m.isLt; omega
  rw [Flags.bitTest, Byte.beq_zero, bitAt_eq_decide, bitAt_eq_decide, hseven]
  rfl

theorem opBit_eq (o : ReadOp) (s : State) :
    opBit o s =
      { (o.get s).2 with regs := { s.regs with p := s.regs.p.bitTest s.regs.a (o.get s).1 } } := by
  simp only [opBit, State.setP, ReadOp.get_regs]

theorem andRows_mean (s : State) (n : Byte) (w : Word) :
    ∀ r ∈ andRows n w, RowMeans r.instr r.opcode r.cycles (opAnd r.operand) s := by
  intro r hr
  fin_cases hr <;> exact ⟨rfl, rfl⟩

theorem oraRows_mean (s : State) (n : Byte) (w : Word) :
    ∀ r ∈ oraRows n w, RowMeans r.instr r.opcode r.cycles (opOra r.operand) s := by
  intro r hr
  fin_cases hr <;> exact ⟨rfl, rfl⟩

theorem eorRows_mean (s : State) (n : Byte) (w : Word) :
    ∀ r ∈ eorRows n w, RowMeans r.instr r.opcode r.cycles (opEor r.operand) s := by
  intro r hr
  fin_cases hr <;> exact ⟨rfl, rfl⟩

theorem bitRows_mean (s : State) (n : Byte) (w : Word) :
    ∀ r ∈ bitRows n w, RowMeans r.instr r.opcode r.cycles (opBit r.operand) s := by
  intro r hr
  fin_cases hr <;> exact ⟨rfl, rfl⟩

/-! ### The shifted bytes in numbers -/

theorem Byte.toNat_shiftLeft_one (m : Byte) : (m <<< 1).toNat = 2 * m.toNat % 256 := by
  rw [BitVec.toNat_shiftLeft, Nat.shiftLeft_eq, pow_one, mul_comm]

theorem Byte.toNat_shiftRight_one (m : Byte) : (m >>> 1).toNat = m.toNat / 2 := by
  rw [BitVec.toNat_ushiftRight, Nat.shiftRight_one]

theorem aslByte_eq (m : Byte) : aslByte m = BitVec.ofNat 8 (2 * m.toNat) :=
  BitVec.eq_of_toNat_eq (by rw [aslByte, Byte.toNat_shiftLeft_one, BitVec.toNat_ofNat])

theorem lsrByte_eq (m : Byte) : lsrByte m = BitVec.ofNat 8 (m.toNat / 2) := by
  apply BitVec.eq_of_toNat_eq
  have := m.isLt
  rw [lsrByte, Byte.toNat_shiftRight_one, BitVec.toNat_ofNat]
  omega

/-- The carry enters at bit 0, which the shift left empty, so or-ing it in adds it (R557). -/
theorem rolByte_eq (c : Bool) (m : Byte) : rolByte c m = BitVec.ofNat 8 (2 * m.toNat + boolNat c) := by
  have hdisjoint : (m <<< 1) &&& (BitVec.ofBool c).setWidth 8 = 0#8 := by
    ext i hi
    cases i <;> simp
  apply BitVec.eq_of_toNat_eq
  have := boolNat_le c
  rw [rolByte, ← BitVec.add_eq_or_of_and_eq_zero _ _ hdisjoint, BitVec.toNat_add, Byte.toNat_shiftLeft_one,
    BitVec.toNat_setWidth, BitVec.toNat_ofBool, ← boolNat_eq_toNat, BitVec.toNat_ofNat]
  omega

/-- The carry enters at bit 7, which the shift left empty, so or-ing it in adds it (R558). -/
theorem rorByte_eq (c : Bool) (m : Byte) : rorByte c m = BitVec.ofNat 8 (m.toNat / 2 + 128 * boolNat c) := by
  have hdisjoint : (m >>> 1) &&& ((BitVec.ofBool c).setWidth 8 <<< 7) = 0#8 := by
    ext i hi
    obtain hlow | rfl : i < 7 ∨ i = 7 := by omega
    · simp [hlow]
    · simp
  apply BitVec.eq_of_toNat_eq
  have := boolNat_le c
  rw [rorByte, ← BitVec.add_eq_or_of_and_eq_zero _ _ hdisjoint, BitVec.toNat_add, Byte.toNat_shiftRight_one,
    BitVec.toNat_shiftLeft, BitVec.toNat_setWidth, BitVec.toNat_ofBool, ← boolNat_eq_toNat, BitVec.toNat_ofNat]
  omega

/-! ### The flags of a shift in numbers: a left shift puts bit 7 into C, a right shift bit 0 -/

theorem Flags.afterShift_eq (p : Flags) (out : Bool) (v : Byte) : p.afterShift out v = { nzOf p v with c := out } := by
  rw [Flags.afterShift, Flags.setNZ_eq_nzOf]
  rfl

theorem Flags.afterShift_bitAt_seven (p : Flags) (m v : Byte) :
    p.afterShift (bitAt m 7) v = { nzOf p v with c := decide (128 ≤ m.toNat) } := by
  rw [Flags.afterShift_eq, Byte.bitAt_seven]

theorem Flags.afterShift_bitAt_zero (p : Flags) (m v : Byte) :
    p.afterShift (bitAt m 0) v = { nzOf p v with c := decide (m.toNat % 2 = 1) } := by
  rw [Flags.afterShift_eq, bitAt_eq_decide, pow_zero, Nat.div_one]

/-! ### What a shift means -/

/-- The one meaning ASL, LSR, ROL and ROR have: the operand m becomes `f m`, C its bit `k`, Z and N from `f m` (R555 to R558). -/
def opShift (f : Byte → Byte) (k : Nat) (o : ModOp) (s : State) : State :=
  (o.modify f s).2.setP
    ((o.modify f s).2.regs.p.afterShift (bitAt (o.modify f s).1 k) (f (o.modify f s).1))

theorem opShift_mem (f : Byte → Byte) (k : Nat) (m : MemMode) (s : State) :
    opShift f k (.mem m) s = m.change f (fun v => s.regs.p.afterShift (bitAt v k) (f v)) s := by
  simp only [opShift, MemMode.change, ModOp.modify_mem_regs]

/-- A row with that meaning, on memory, runs as a read-modify-write instruction. -/
theorem ModRow.runs_of_shift {r : ModRow} {f : Byte → Byte} {k : Nat} {s : State} (hs : s.MemOk)
    (hrow : RowMeans r.instr r.opcode r.cycles (opShift f k (.mem r.mode)) s) :
    r.Runs f (fun v => s.regs.p.afterShift (bitAt v k) (f v)) s :=
  ModRow.runs_of_means (op := fun m => opShift f k (.mem m)) hs hrow fun m _ => opShift_mem f k m _

theorem aslRows_mean (s : State) (n : Byte) (w : Word) :
    ∀ r ∈ aslRows n w, RowMeans r.instr r.opcode r.cycles (opShift aslByte 7 (.mem r.mode)) s := by
  intro r hr
  fin_cases hr <;> exact ⟨rfl, rfl⟩

theorem lsrRows_mean (s : State) (n : Byte) (w : Word) :
    ∀ r ∈ lsrRows n w, RowMeans r.instr r.opcode r.cycles (opShift lsrByte 0 (.mem r.mode)) s := by
  intro r hr
  fin_cases hr <;> exact ⟨rfl, rfl⟩

theorem rolRows_mean (s : State) (n : Byte) (w : Word) :
    ∀ r ∈ rolRows n w, RowMeans r.instr r.opcode r.cycles (opShift (rolByte s.regs.p.c) 7 (.mem r.mode)) s := by
  intro r hr
  fin_cases hr <;> exact ⟨rfl, rfl⟩

theorem rorRows_mean (s : State) (n : Byte) (w : Word) :
    ∀ r ∈ rorRows n w, RowMeans r.instr r.opcode r.cycles (opShift (rorByte s.regs.p.c) 0 (.mem r.mode)) s := by
  intro r hr
  fin_cases hr <;> exact ⟨rfl, rfl⟩

end Sys2Proof.Machine

namespace Sys2Proof

open Sys2Proof.Machine

/-- Settles O12: AND, ORA and EOR are one meaning with three operations; BIT's flags are bits of the operand and of A & M. -/
theorem logicAndBitTestResults : Obligations.LogicAndBitTestResults := by
  intro s n w
  simp only [← Flags.bitTest_eq]
  exact ⟨fun r hr => ReadRow.runs_of_means (andRows_mean s n w r hr) fun o _ => opLogic_eq _ o _,
    fun r hr => ReadRow.runs_of_means (oraRows_mean s n w r hr) fun o _ => opLogic_eq _ o _,
    fun r hr => ReadRow.runs_of_means (eorRows_mean s n w r hr) fun o _ => opLogic_eq _ o _,
    fun r hr => ReadRow.runs_of_means (bitRows_mean s n w r hr) fun o _ => opBit_eq o _⟩

/-- Settles O15: the four shifts are one meaning, on memory a read-modify-write row, on A a change of A and the flags; the
bytes and flags of the statement are the model's, in numbers. -/
theorem shiftsAndRotates : Obligations.ShiftsAndRotates := by
  intro s n w hs p asl lsr rol ror left right
  simp only [p, asl, lsr, rol, ror, left, right, ← aslByte_eq, ← lsrByte_eq, ← rolByte_eq, ← rorByte_eq,
    ← Flags.afterShift_bitAt_seven, ← Flags.afterShift_bitAt_zero]
  exact ⟨fun r hr => ModRow.runs_of_shift hs (aslRows_mean s n w r hr),
    fun r hr => ModRow.runs_of_shift hs (lsrRows_mean s n w r hr),
    fun r hr => ModRow.runs_of_shift hs (rolRows_mean s n w r hr),
    fun r hr => ModRow.runs_of_shift hs (rorRows_mean s n w r hr),
    rfl, rfl, rfl, rfl⟩

end Sys2Proof
end

section
/-! Branches and jumps (44_control.md R600 to R609): the target and the cycles of a branch in numbers, its two
outcomes, the pointer of an indirect jump, and the two statements. -/

namespace Sys2Proof.Machine

/-! ### Branches -/

/-- The target in exact integers, modulo 65536 (30_encoding.md R332). -/
theorem relTarget_eq_ofInt (next : Word) (n : Byte) : relTarget next n = BitVec.ofInt 16 (next.toNat + n.toInt) := by
  rw [BitVec.ofInt_add, BitVec.ofInt_natCast, BitVec.ofNat_toNat, BitVec.setWidth_eq]
  rfl

/-- A taken branch adds one cycle, and one more on another page (70_reset_and_hazards.md R1012). -/
theorem branchCycles_eq (next : Word) (n : Byte) :
    branchCycles next n = if (relTarget next n).toNat / 256 = next.toNat / 256 then 1 else 2 := by
  simp only [branchCycles, boolNat, bne_iff_ne, page_ne_iff, ne_eq, ite_not]
  split <;> rfl

theorem opBranch_taken (n : Byte) (s : State) :
    opBranch true n (s.begin 2) =
      { s with
        regs := { s.regs with pc := relTarget s.regs.pc n }
        ctl := { s.ctl with stepBase := 2, stepCycles := s.ctl.stepCycles + 2 + branchCycles s.regs.pc n } } := rfl

theorem opBranch_not_taken (n : Byte) (s : State) : opBranch false n (s.begin 2) = s.afterImplied s.regs 2 := rfl

/-! ### The pointer of an indirect jump -/

/-- The pointer's second address, within the page of the first (30_encoding.md R329). -/
theorem wordOf_hi_lo_add_one (w : Word) :
    wordOf (hiByte w) (loByte w + 1) = BitVec.ofNat 16 (w.toNat / 256 * 256 + (w.toNat + 1) % 256) := by
  apply BitVec.eq_of_toNat_eq
  have := w.isLt
  simp
  omega

theorem peek_begin (a : Word) (s : State) (base : Nat) : (s.begin base).peek a = s.peek a := by
  unfold State.peek readRegion
  split <;> rfl

/-- A bus read neither sees nor changes the cycles counted at the start of an instruction. -/
theorem busRead_begin (a : Word) (s : State) (base : Nat) : (busRead a (s.begin base)).2 = (busRead a s).2.begin base := by
  rw [busRead_snd, busRead_snd, peek_begin]
  unfold readRegion
  split <;> rfl

/-- One more read of storage. -/
theorem ReadStorage.busRead {n k : Nat} {s t : State} (h : ReadStorage n k s t) {a : Word} (ha : isStorage a = true) :
    ReadStorage (n + 1) k s (Machine.busRead a t).2 := by
  obtain ⟨hlength, hdrop⟩ := h.events
  have hregion : a.toNat < 0x2000 ∨ 0x6000 ≤ a.toNat := by simpa [isStorage] using ha
  rw [busRead_storage (by omega)]
  exact ⟨h.ctl, h.rest, congrArg (· + 1) hlength, hdrop⟩

end Sys2Proof.Machine

namespace Sys2Proof

open Sys2Proof.Machine

/-- Settles O21: each row is `opBranch` on its own flag; the two outcomes are those of the one meaning. -/
theorem branchesFollowTheirFlag : Obligations.BranchesFollowTheirFlag := by
  intro s n r hr target more
  have hrow : RowMeans r.1 r.2.1 2 (opBranch r.2.2 n) s := by fin_cases hr <;> exact ⟨rfl, rfl⟩
  obtain ⟨hopcode, hexec⟩ := hrow
  have htarget : relTarget s.regs.pc n = target := relTarget_eq_ofInt s.regs.pc n
  have hmore : branchCycles s.regs.pc n = more := by rw [branchCycles_eq, htarget]
  refine ⟨hopcode, fun htaken => ?_, fun hnot => ?_⟩
  · rw [hexec, htaken, opBranch_taken, htarget, hmore]
  · rw [hexec, hnot, opBranch_not_taken]

/-- Settles O22: the indirect jump is two bus reads, the second within the page of the first, then a change of PC. -/
theorem jumpsLoadPc : Obligations.JumpsLoadPc := by
  intro s w
  refine ⟨rfl, ?_⟩
  intro second
  have hexec : exec (.jmpInd w) s =
      .next ((indirect w (s.begin 5)).2.setPc (indirect w (s.begin 5)).1) := rfl
  have hfst : (indirect w (s.begin 5)).1 = wordOf ((busRead w s).2.peek second) (s.peek w) := by
    rw [indirect, wordOf_hi_lo_add_one, read16_eq, busRead_begin, peek_begin, peek_begin]
  have hsnd : (indirect w (s.begin 5)).2 = (busRead second (busRead w s).2).2.begin 5 := by
    rw [indirect, wordOf_hi_lo_add_one, read16_eq, busRead_begin, busRead_begin]
  rw [hfst, hsnd] at hexec
  have hreads := (OnlyReads.busRead w s).trans (OnlyReads.busRead second _)
  refine ⟨_, hexec, ?_, rfl, (hreads.trans (OnlyReads.begin _ 5)).setRegs _, ?_, fun hw hsecond => ⟨?_, ?_⟩⟩
  · simp
  · simp
  · rw [State.setPc_regs, (OnlyReads.busRead w s).peek hsecond]
  · rw [← busRead_begin, ← busRead_begin]
    exact (((ReadStorage.begin s 5).busRead hw).busRead hsecond).setRegs _

end Sys2Proof
end

section
/-! Subroutines, BRK and the returns (44_control.md R610 to R613; 60_exceptions.md R720, R740): what pushing a word and entering a
handler leave, what pulling a word gives, that the returns pull what was pushed, and the three statements. -/

namespace Sys2Proof.Machine

/-! ### What pushes leave of storage -/

theorem Pushed.refl (s : State) : Pushed [] s s where
  ctl := rfl
  devices := ⟨rfl, rfl, rfl, rfl, rfl⟩
  stored := fun _ _ h => absurd h (by simp)
  others := fun _ _ _ => rfl

/-- What is pushed after the start of an instruction is pushed since before it. -/
theorem Pushed.of_begin {bs : List Byte} {s t : State} {base : Nat} (h : Pushed bs (s.begin base) t) : Pushed bs s t where
  ctl := h.ctl
  devices := h.devices
  stored := h.stored
  others := fun a ha hne => (h.others a ha hne).trans (peek_begin a s base)

/-- Reads that reach no device, beside the pushes. -/
theorem Pushed.reads {bs : List Byte} {s t u : State} (h : Pushed bs s t) (hreads : OnlyReads t u)
    (hsame : SameDevices t u) : Pushed bs s u where
  ctl := by rw [hreads.ctl, h.ctl]
  devices := by
    obtain ⟨hcart, hppu, hapu, hpads, hinputs⟩ := h.devices
    exact ⟨hreads.cart.trans hcart, hsame.ppu.trans hppu, hsame.apu.trans hapu, hsame.pads.trans hpads,
      hreads.inputs.trans hinputs⟩
  stored := fun j b hb => (hreads.peek (isStorage_stackAddr _)).trans (h.stored j b hb)
  others := fun a ha hne => (hreads.peek ha).trans (h.others a ha hne)

theorem Pushed.setRegs {bs : List Byte} {s t : State} (h : Pushed bs s t) (r : Regs) : Pushed bs s { t with regs := r } :=
  h.reads ((OnlyReads.refl t).setRegs r) ((SameDevices.refl t).setRegs r)

theorem readsDevice_cart {a : Word} (ha : 0x6000 ≤ a.toNat) : readsDevice a = false := by
  simp only [readsDevice, Bool.or_eq_false_iff, decide_eq_false_iff_not]
  omega

/-- The cartridge's bytes are no slots of the stack. -/
theorem Pushed.peek_cart {bs : List Byte} {s t : State} (h : Pushed bs s t) {a : Word} (ha : 0x6000 ≤ a.toNat) :
    t.peek a = s.peek a := by
  refine h.others a (isStorage_of_ram_or_cart (.inr ha)) fun j _ hcell => ?_
  have hslot := stackAddr_lt (s.regs.sp - BitVec.ofNat 8 j)
  rcases hcell with hsame | ⟨hlow, -⟩
  · rw [← hsame] at hslot
    omega
  · omega

/-- The byte `k` above S is the pushed one with `k` bytes from it to the last. -/
theorem Pushed.stackPeek {bs : List Byte} {s t : State} (h : Pushed bs s t)
    (hsp : t.regs.sp = s.regs.sp - BitVec.ofNat 8 bs.length) {j k : Nat} (hjk : j + k = bs.length) {b : Byte}
    (hb : bs[j]? = some b) : t.stackPeek k = b := by
  have hslot : t.regs.sp + BitVec.ofNat 8 k = s.regs.sp - BitVec.ofNat 8 j := by
    rw [hsp, ← hjk]
    bv_omega
  rw [State.stackPeek, hslot]
  exact h.stored j b hb

/-- Reads leave the bytes above S. -/
theorem OnlyReads.stackPeek {s t : State} (h : OnlyReads s t) (hsp : t.regs.sp = s.regs.sp) (k : Nat) :
    t.stackPeek k = s.stackPeek k := by
  rw [State.stackPeek, hsp]
  exact h.peek (isStorage_stackAddr _)

/-! ### Pushing a word -/

@[simp] theorem pushWord_regs (w : Word) (s : State) : (pushWord w s).regs = { s.regs with sp := s.regs.sp - 2 } := by
  have hsp : s.regs.sp - 1 - 1 = s.regs.sp - 2 := by bv_omega
  rw [pushWord, push_regs, push_regs, hsp]

@[simp] theorem pushWord_ctl (w : Word) (s : State) : (pushWord w s).ctl = s.ctl := by rw [pushWord, push_ctl, push_ctl]

theorem pushWord_trace_length (w : Word) (s : State) : (pushWord w s).trace.length = s.trace.length + 2 := by
  rw [pushWord, push_trace, List.length_cons, push_trace, List.length_cons]

/-- The high byte is pushed first (R130, R203). -/
theorem pushWord_pushed {s : State} (hs : s.MemOk) (w : Word) : Pushed [hiByte w, loByte w] s (pushWord w s) := by
  have hhigh : Pushed [hiByte w] s (push (hiByte w) s) :=
    (Pushed.refl s).push hs (BitVec.sub_zero _).symm (by decide) _
  exact hhigh.push (State.stepStable_memOk.push _ hs) (by rw [push_regs]; rfl) (by simp) _

/-! ### Entering a handler -/

/-- What an entry saves before it reads the vector: the return address, then the status (R612, R720). -/
def saveReturn (ret : Word) (b : Bool) (s : State) : State := push (s.regs.p.pushed b) (pushWord ret s)

@[simp] theorem saveReturn_regs (ret : Word) (b : Bool) (s : State) :
    (saveReturn ret b s).regs = { s.regs with sp := s.regs.sp - 3 } := by
  have hsp : s.regs.sp - 2 - 1 = s.regs.sp - 3 := by bv_omega
  rw [saveReturn, push_regs, pushWord_regs, hsp]

@[simp] theorem saveReturn_ctl (ret : Word) (b : Bool) (s : State) : (saveReturn ret b s).ctl = s.ctl := by
  rw [saveReturn, push_ctl, pushWord_ctl]

theorem saveReturn_trace_length (ret : Word) (b : Bool) (s : State) :
    (saveReturn ret b s).trace.length = s.trace.length + 3 := by
  rw [saveReturn, push_trace, List.length_cons, pushWord_trace_length]

theorem saveReturn_pushed {s : State} (hs : s.MemOk) (ret : Word) (b : Bool) :
    Pushed [hiByte ret, loByte ret, s.regs.p.pushed b] s (saveReturn ret b s) :=
  (pushWord_pushed hs ret).push (State.stepStable_memOk.pushWord _ hs) (by rw [pushWord_regs]; rfl) (by simp) _

/-- The state in which an entry reads the vector: I is set. -/
def enterMasked (ret : Word) (b : Bool) (s : State) : State := (saveReturn ret b s).setP (s.regs.p.setI true)

theorem enterHandler_eq (ret : Word) (b : Bool) (vector : Word) (s : State) :
    enterHandler ret b vector s =
      (read16 vector (vector + 1) (enterMasked ret b s)).2.setPc (read16 vector (vector + 1) (enterMasked ret b s)).1 := by
  have hflags : (saveReturn ret b s).regs.p = s.regs.p := by rw [saveReturn_regs]
  rw [enterMasked, ← hflags]
  rfl

theorem enterHandler_regs (ret : Word) (b : Bool) (vector : Word) (s : State) :
    (enterHandler ret b vector s).regs =
      { s.regs with
        pc := (read16 vector (vector + 1) (enterMasked ret b s)).1, sp := s.regs.sp - 3, p := s.regs.p.setI true } := by
  rw [enterHandler_eq, State.setPc_regs, read16_regs, enterMasked, State.setP_regs, saveReturn_regs]

@[simp] theorem enterHandler_ctl (ret : Word) (b : Bool) (vector : Word) (s : State) :
    (enterHandler ret b vector s).ctl = s.ctl := by
  rw [enterHandler_eq, State.setPc_ctl, read16_ctl, enterMasked, State.setP_ctl, saveReturn_ctl]

/-- Three pushes and two reads. -/
theorem enterHandler_trace_length (ret : Word) (b : Bool) (vector : Word) (s : State) :
    (enterHandler ret b vector s).trace.length = s.trace.length + 5 := by
  rw [enterHandler_eq, State.setPc_trace, read16_eq, busRead_trace, busRead_trace, List.length_cons, List.length_cons,
    enterMasked, State.setP_trace, saveReturn_trace_length]

/-- After the saves an entry only reads, whatever its vector. -/
theorem OnlyReads.enterHandler (ret : Word) (b : Bool) (vector : Word) (s : State) :
    OnlyReads (saveReturn ret b s) (Machine.enterHandler ret b vector s) := by
  rw [enterHandler_eq]
  exact (((OnlyReads.refl _).setRegs _).trans (OnlyReads.read16 vector (vector + 1) (enterMasked ret b s))).setRegs _

theorem enterMasked_pushed {s : State} (hs : s.MemOk) (ret : Word) (b : Bool) :
    Pushed [hiByte ret, loByte ret, s.regs.p.pushed b] s (enterMasked ret b s) :=
  (saveReturn_pushed hs ret b).setRegs _

/-- With its vector in the cartridge, an entry touches nothing but the stack. -/
theorem enterHandler_pushed {s : State} (hs : s.MemOk) (ret : Word) (b : Bool) {vector : Word}
    (hlow : 0x6000 ≤ vector.toNat) (hhigh : 0x6000 ≤ (vector + 1).toNat) :
    Pushed [hiByte ret, loByte ret, s.regs.p.pushed b] s (enterHandler ret b vector s) := by
  rw [enterHandler_eq]
  exact ((enterMasked_pushed hs ret b).reads (OnlyReads.read16 _ _ _)
    ((SameDevices.busRead _ (readsDevice_cart hlow)).trans (SameDevices.busRead _ (readsDevice_cart hhigh)))).setRegs _

/-- A vector in the cartridge is the word that stood there before the entry. -/
theorem enterHandler_vector {s : State} (hs : s.MemOk) (ret : Word) (b : Bool) {vector : Word}
    (hlow : 0x6000 ≤ vector.toNat) (hhigh : 0x6000 ≤ (vector + 1).toNat) :
    (read16 vector (vector + 1) (enterMasked ret b s)).1 = s.peekWord vector := by
  have hpushed := enterMasked_pushed hs ret b
  rw [read16_storage (.inr hlow) (.inr hhigh), hpushed.peek_cart hlow, hpushed.peek_cart hhigh, State.peekWord]

/-! ### Pulling a word -/

@[simp] theorem pullWord_regs (s : State) : (pullWord s).2.regs = { s.regs with sp := s.regs.sp + 2 } := by
  have hsp : s.regs.sp + 1 + 1 = s.regs.sp + 2 := by bv_omega
  show (pull (pull s).2).2.regs = _
  rw [pull_regs, pull_regs, hsp]

theorem ReadStorage.pullWord {n k : Nat} {s t : State} (h : ReadStorage n k s t) :
    ReadStorage (n + 2) k s (Machine.pullWord t).2 := h.pull.pull

/-- The word pulled after `j` pulls: the low byte first (R131, R203). -/
theorem ReadStorage.pullWord_fst {n k : Nat} {s t : State} (h : ReadStorage n k s t) {j : Nat}
    (hsp : t.regs.sp = s.regs.sp + BitVec.ofNat 8 j) :
    (Machine.pullWord t).1 = wordOf (s.stackPeek (j + 2)) (s.stackPeek (j + 1)) := by
  have hnext : (Machine.pull t).2.regs.sp = s.regs.sp + BitVec.ofNat 8 (j + 1) := by
    rw [pull_regs, hsp]
    bv_omega
  show wordOf (Machine.pull (Machine.pull t).2).1 (Machine.pull t).1 = _
  rw [h.pull_fst hsp, h.pull.pull_fst hnext]

/-! ### Returning from a handler -/

/-- The state in which a return pulls PC: the flags are the pulled ones. -/
def pullFlags (s : State) : State := (pull s).2.setP (Flags.ofByte (pull s).1)

theorem returnFromHandler_eq (s : State) :
    returnFromHandler s = (pullWord (pullFlags s)).2.setPc (pullWord (pullFlags s)).1 := rfl

theorem ReadStorage.pullFlags {n k : Nat} {s t : State} (h : ReadStorage n k s t) :
    ReadStorage (n + 1) k s (Machine.pullFlags t) := h.pull.setRegs _

/-- A return only reads, three bytes of the stack. -/
theorem ReadStorage.returnFromHandler {n k : Nat} {s t : State} (h : ReadStorage n k s t) :
    ReadStorage (n + 3) k s (Machine.returnFromHandler t) := h.pullFlags.pullWord.setRegs _

/-- The status is the byte at S + 1, PC the word after it; nothing is added (R613). -/
theorem ReadStorage.returnFromHandler_regs {n k : Nat} {s t : State} (h : ReadStorage n k s t) (hregs : t.regs = s.regs) :
    (Machine.returnFromHandler t).regs =
      { s.regs with
        pc := wordOf (s.stackPeek 3) (s.stackPeek 2), sp := s.regs.sp + 3, p := flagBits (s.stackPeek 1) } := by
  have hflags : Flags.ofByte (Machine.pull t).1 = flagBits (s.stackPeek 1) := by
    rw [h.pull_fst (j := 0) (by rw [hregs]; exact (BitVec.add_zero _).symm), Flags.ofByte_eq_flagBits]
  have hafter : (Machine.pullFlags t).regs =
      { s.regs with sp := s.regs.sp + 1, p := flagBits (s.stackPeek 1) } := by
    rw [Machine.pullFlags, State.setP_regs, hflags, pull_regs, hregs]
  have hword : (Machine.pullWord (Machine.pullFlags t)).1 = wordOf (s.stackPeek 3) (s.stackPeek 2) :=
    h.pullFlags.pullWord_fst (j := 1) (by rw [hafter]; rfl)
  have hsp : s.regs.sp + 1 + 2 = s.regs.sp + 3 := by bv_omega
  rw [returnFromHandler_eq, State.setPc_regs, pullWord_regs, hword, hafter, hsp]

/-- RTI is that return, in 6 cycles. -/
theorem exec_rti (s : State) :
    ∃ t, exec .rti s = .next t ∧ ReadStorage 3 6 s t ∧
      t.regs =
        { s.regs with
          pc := wordOf (s.stackPeek 3) (s.stackPeek 2), sp := s.regs.sp + 3, p := flagBits (s.stackPeek 1) } :=
  have hbegin := ReadStorage.begin s 6
  ⟨_, rfl, hbegin.returnFromHandler, hbegin.returnFromHandler_regs rfl⟩

/-- RTI after an entry, whatever its vector and whatever has only been read since, finds what the entry saved. -/
theorem exec_rti_of_enterHandler {s : State} (hs : s.MemOk) (ret : Word) (b : Bool) (vector : Word) {t : State}
    (hreads : OnlyReads (enterHandler ret b vector s) t) (hregs : t.regs = (enterHandler ret b vector s).regs) :
    ∃ u, exec .rti t = .next u ∧ u.regs = { s.regs with pc := ret } := by
  have hsaved := saveReturn_pushed hs ret b
  have hsp : (saveReturn ret b s).regs.sp = s.regs.sp - 3 := by rw [saveReturn_regs]
  rw [enterHandler_regs] at hregs
  have hpeek (k : Nat) : t.stackPeek k = (saveReturn ret b s).stackPeek k :=
    ((OnlyReads.enterHandler ret b vector s).trans hreads).stackPeek (by rw [hregs, hsp]) k
  have hstatus : t.stackPeek 1 = s.regs.p.pushed b := (hpeek 1).trans (hsaved.stackPeek hsp (j := 2) rfl rfl)
  have hlow : t.stackPeek 2 = loByte ret := (hpeek 2).trans (hsaved.stackPeek hsp (j := 1) rfl rfl)
  have hhigh : t.stackPeek 3 = hiByte ret := (hpeek 3).trans (hsaved.stackPeek hsp (j := 0) rfl rfl)
  obtain ⟨u, hexec, -, hu⟩ := exec_rti t
  refine ⟨u, hexec, ?_⟩
  rw [hu, hstatus, hlow, hhigh, wordOf_hi_lo, ← Flags.ofByte_eq_flagBits, Flags.ofByte_pushed, hregs,
    BitVec.sub_add_cancel]

end Sys2Proof.Machine

namespace Sys2Proof

open Sys2Proof.Machine

/-- Settles O23: JSR is one word pushed, RTS one word pulled, each then a change of PC. -/
theorem subroutineInstructions : Obligations.SubroutineInstructions := by
  intro s
  refine ⟨fun w hs => ⟨_, rfl, ?_, (pushWord_pushed (hs.begin 6) _).of_begin.setRegs _, ?_, pushWord_trace_length _ _⟩, ?_⟩
  · rw [State.setPc_regs, pushWord_regs, State.begin_regs]
  · rw [State.setPc_ctl, pushWord_ctl, State.begin_ctl]
  · have hbegin := ReadStorage.begin s 6
    have hword : (pullWord (s.begin 6)).1 = wordOf (s.stackPeek 2) (s.stackPeek 1) :=
      hbegin.pullWord_fst (BitVec.add_zero s.regs.sp).symm
    exact ⟨_, rfl, hbegin.pullWord.setRegs _, by rw [State.setPc_regs, pullWord_regs, hword, State.begin_regs]⟩

/-- Settles O24: BRK enters the handler of a vector in the cartridge, RTI returns from one. -/
theorem breakAndReturn : Obligations.BreakAndReturn := by
  intro s
  refine ⟨fun hs => ?_, exec_rti s⟩
  have hvector : 0x6000 ≤ irqVector.toNat ∧ 0x6000 ≤ (irqVector + 1).toNat := by decide
  obtain ⟨hlow, hhigh⟩ := hvector
  have hs' := hs.begin 7
  refine ⟨_, rfl, ?_, (enterHandler_pushed hs' _ _ hlow hhigh).of_begin, ?_, enterHandler_trace_length _ _ _ _⟩
  · rw [enterHandler_regs, enterHandler_vector hs' _ _ hlow hhigh, State.peekWord, peek_begin, peek_begin]
    rfl
  · rw [enterHandler_ctl, State.begin_ctl]

/-- Settles O29: RTI undoes the one entry BRK and an interrupt share, RTS the one word JSR pushed. -/
theorem returnsResumeTheCaller : Obligations.ReturnsResumeTheCaller := by
  intro s hs
  refine ⟨?_, fun vector => ?_, fun w => ?_⟩
  · obtain ⟨u, hexec, hu⟩ := exec_rti_of_enterHandler (hs.begin 7) (s.regs.pc + 1) true irqVector (OnlyReads.refl _) rfl
    exact ⟨_, u, rfl, hexec, hu⟩
  · exact exec_rti_of_enterHandler hs s.regs.pc false vector (OnlyReads.of_eq rfl rfl rfl rfl rfl rfl rfl) rfl
  · obtain ⟨hjsr, -⟩ := subroutineInstructions s
    obtain ⟨t, hexec, hregs, hpushed, -⟩ := hjsr w hs
    obtain ⟨-, u, hexec', -, hu⟩ := subroutineInstructions t
    have hsp : t.regs.sp = s.regs.sp - 2 := by rw [hregs]
    have hlow : t.stackPeek 1 = loByte (s.regs.pc - 1) := hpushed.stackPeek hsp (j := 1) rfl rfl
    have hhigh : t.stackPeek 2 = hiByte (s.regs.pc - 1) := hpushed.stackPeek hsp (j := 0) rfl rfl
    refine ⟨t, u, hexec, hexec', ?_⟩
    rw [hu, hlow, hhigh, wordOf_hi_lo, hregs, BitVec.sub_add_cancel, BitVec.sub_add_cancel]

end Sys2Proof
end

section
/-! The flag instructions and NOP (45_flags_misc.md R650 to R658): counting the cycles, alone or followed by a write of the flags,
is `State.afterImplied`. -/

namespace Sys2Proof.Machine

theorem State.begin_eq_afterImplied (s : State) (n : Nat) : s.begin n = s.afterImplied s.regs n := rfl

theorem State.setP_begin_eq_afterImplied (s : State) (n : Nat) (p : Flags) :
    (s.begin n).setP p = s.afterImplied { s.regs with p := p } n := rfl

end Sys2Proof.Machine

namespace Sys2Proof

open Sys2Proof.Machine

/-- Settles O18: each flag instruction counts its cycles and writes P with one flag a constant, NOP only counts. -/
theorem flagInstructionsWriteOneFlag : Obligations.FlagInstructionsWriteOneFlag := by
  intro s
  have hflag (p : Flags) : (.next ((s.begin 2).setP p) : Ans) = .next (s.afterImplied { s.regs with p := p } 2) :=
    congrArg Host.Outcome.next (s.setP_begin_eq_afterImplied 2 p)
  have hnop : exec .nop s = .next (s.afterImplied s.regs 2) :=
    congrArg Host.Outcome.next (s.begin_eq_afterImplied 2)
  exact ⟨hflag (s.regs.p.setC false), hflag (s.regs.p.setC true), hflag (s.regs.p.setI false), hflag (s.regs.p.setI true),
    hflag (s.regs.p.setD false), hflag (s.regs.p.setD true), hflag (s.regs.p.setV false), hnop⟩

end Sys2Proof
end

section
/-! The poll at the start of a step (60_exceptions.md R731 to R733): what it decides, and so which step is made. -/

namespace Sys2Proof.Machine

theorem State.poll_nmi {s : State} (hfault : s.ctl.fault = none) (hnmi : s.ctl.nmiPending = true) : s.poll = .nmi := by
  simp only [State.poll, hfault, hnmi, if_true]

theorem State.poll_irq {s : State} (hfault : s.ctl.fault = none) (hnmi : s.ctl.nmiPending = false)
    (hline : s.irqLine = true) (hmask : s.regs.p.i = false) : s.poll = .irq := by
  simp [State.poll, hfault, hnmi, hline, hmask]

theorem State.poll_instruction {s : State} (hfault : s.ctl.fault = none) (hnmi : s.ctl.nmiPending = false)
    (hquiet : s.irqLine = false ∨ s.regs.p.i = true) : s.poll = .instruction := by
  rcases hquiet with hline | hmask
  · simp [State.poll, hfault, hnmi, hline]
  · simp [State.poll, hfault, hnmi, hmask]

theorem step_of_poll_nmi {s : State} (h : s.poll = .nmi) : step s = .next (finishStep (.interrupt .nmi) (nmiStep s)) := by
  rw [step, h]

theorem step_of_poll_irq {s : State} (h : s.poll = .irq) : step s = .next (finishStep (.interrupt .irq) (irqStep s)) := by
  rw [step, h]

end Sys2Proof.Machine

namespace Sys2Proof

open Sys2Proof.Machine

/-- Settles O27: each clause is the poll's decision under its hypotheses; `irq` is the model's `irqLine`. -/
theorem pollingOrder : Obligations.PollingOrder := fun _ =>
  ⟨fun _ => step_of_fault, fun hfault hnmi => step_of_poll_nmi (State.poll_nmi hfault hnmi),
    fun hfault hnmi hline hmask => step_of_poll_irq (State.poll_irq hfault hnmi hline hmask),
    fun hfault hnmi hquiet => step_of_poll_instruction (State.poll_instruction hfault hnmi hquiet)⟩

end Sys2Proof
end

section
/-! The controller ports (60_exceptions.md R761, R762): the byte and the latches of one read, with the strobe held and without,
and the latches after a run of reads. -/

namespace Sys2Proof.Machine

theorem padByte_toNat (shift : Byte) (index : BitVec 3) :
    (padByte shift index).toNat = 0x40 + shift.toNat / 2 ^ index.toNat % 2 := by
  rw [padByte, bitAt_eq_decide]
  rcases Nat.mod_two_eq_zero_or_one (shift.toNat / 2 ^ index.toNat) with h | h <;> rw [h] <;> rfl

theorem padByte_zero (shift : Byte) : (padByte shift 0).toNat = 0x40 + shift.toNat % 2 :=
  (padByte_toNat shift 0).trans (congrArg (0x40 + · % 2) (Nat.div_one _))

/-! ### The accesses at the ports' addresses -/

theorem busRead_pad1_fst (s : State) : (busRead 0x4016 s).1 = (s.pads.read1 s.inputs).1 := rfl

theorem busRead_pad1_pads (s : State) : (busRead 0x4016 s).2.pads = (s.pads.read1 s.inputs).2 := rfl

theorem busRead_pad2_fst (s : State) : (busRead 0x4017 s).1 = (s.pads.read2 s.inputs).1 := rfl

theorem busRead_pad2_pads (s : State) : (busRead 0x4017 s).2.pads = (s.pads.read2 s.inputs).2 := rfl

/-! ### The ports -/

theorem Pads.writeStrobe_set {v : Byte} (h : v.getLsbD 0 = true) (p : Pads) (inp : Inputs) :
    p.writeStrobe inp v =
      { strobe := true, shift1 := inp.buttons1, shift2 := inp.buttons2, index1 := 0, index2 := 0 } := if_pos h

theorem Pads.writeStrobe_clear {v : Byte} (h : v.getLsbD 0 = false) (p : Pads) (inp : Inputs) :
    p.writeStrobe inp v = { p with strobe := false } := if_neg (by rw [bitAt, h]; decide)

theorem Pads.read1_held {p : Pads} (h : p.strobe = true) (inp : Inputs) :
    p.read1 inp = (padByte inp.buttons1 0, { p with shift1 := inp.buttons1, index1 := 0 }) := if_pos h

theorem Pads.read2_held {p : Pads} (h : p.strobe = true) (inp : Inputs) :
    p.read2 inp = (padByte inp.buttons2 0, { p with shift2 := inp.buttons2, index2 := 0 }) := if_pos h

theorem Pads.read1_free {p : Pads} (h : p.strobe = false) (inp : Inputs) :
    p.read1 inp = (padByte p.shift1 p.index1, { p with index1 := p.index1 + 1 }) := if_neg (by rw [h]; decide)

theorem Pads.read2_free {p : Pads} (h : p.strobe = false) (inp : Inputs) :
    p.read2 inp = (padByte p.shift2 p.index2, { p with index2 := p.index2 + 1 }) := if_neg (by rw [h]; decide)

theorem padIndex_succ (i : BitVec 3) : i + 1 = BitVec.ofNat 3 (i.toNat + 1) := by bv_omega

/-- The ports after `k` reads of $4016 with the strobe off: index 1 has moved on by `k` modulo 8 (R762). -/
theorem padReads1_pads {s : State} (h : s.pads.strobe = false) (k : Nat) :
    (padReads1 k s).pads = { s.pads with index1 := s.pads.index1 + BitVec.ofNat 3 k } := by
  induction k generalizing s with
  | zero => rw [BitVec.add_zero]; rfl
  | succ k ih =>
    have hread : (busRead 0x4016 s).2.pads = { s.pads with index1 := s.pads.index1 + 1 } := by
      rw [busRead_pad1_pads, Pads.read1_free h]
    have hindex : s.pads.index1 + 1 + BitVec.ofNat 3 k = s.pads.index1 + BitVec.ofNat 3 (k + 1) := by bv_omega
    rw [padReads1, ih (by rw [hread]; exact h), hread, hindex]

/-- So a further read gives the button `k` places on, modulo 8. -/
theorem busRead_padReads1 {s : State} (h : s.pads.strobe = false) (k : Nat) :
    (busRead 0x4016 (padReads1 k s)).1.toNat =
      0x40 + s.pads.shift1.toNat / 2 ^ ((s.pads.index1.toNat + k) % 8) % 2 := by
  have hpads := padReads1_pads h k
  have hfree : (padReads1 k s).pads.strobe = false := by rw [hpads]; exact h
  have hindex : (s.pads.index1 + BitVec.ofNat 3 k).toNat = (s.pads.index1.toNat + k) % 8 := by simp
  rw [busRead_pad1_fst, Pads.read1_free hfree, padByte_toNat, hpads, hindex]

end Sys2Proof.Machine

namespace Sys2Proof

open Sys2Proof.Machine

/-- Settles O52: each access is its port's own operation, with the strobe held or off; the k-th read is a read at the index moved
on by k. -/
theorem controllerReadsWrap : Obligations.ControllerReadsWrap := by
  intro s
  dsimp only
  rw [busRead_pad1_fst, busRead_pad1_pads, busRead_pad2_fst, busRead_pad2_pads]
  refine ⟨fun v hv => Pads.writeStrobe_set hv s.pads s.inputs, fun v hv => Pads.writeStrobe_clear hv s.pads s.inputs,
    fun _ hheld => ?_, fun hfree => ?_⟩
  · rw [Pads.read1_held hheld, Pads.read2_held hheld]
    exact ⟨padByte_zero _, rfl, padByte_zero _, rfl⟩
  · rw [Pads.read1_free hfree, Pads.read2_free hfree, padIndex_succ, padIndex_succ]
    exact ⟨padByte_toNat _ _, rfl, padByte_toNat _ _, rfl, busRead_padReads1 hfree⟩

end Sys2Proof
end

section
/-! Interrupt entry (60_exceptions.md R720): its five events, and what it makes of a step's state, said once for NMI and IRQ. -/

namespace Sys2Proof.Machine

/-! ### The events of an entry -/

/-- A push changes nothing an event is made of. -/
@[simp] theorem push_event (v : Byte) (s : State) : (push v s).event = s.event := by
  rw [push_eq]
  rfl

/-- The three stack writes of an entry, newest first: the status below the return address, which stands high byte first. -/
def State.saveEvents (s : State) (ret : Word) (b : Bool) : List BusEvent :=
  [s.event .write (stackAddr (s.regs.sp - BitVec.ofNat 8 2)) (s.regs.p.pushed b),
    s.event .write (stackAddr (s.regs.sp - BitVec.ofNat 8 1)) (loByte ret),
    s.event .write (stackAddr (s.regs.sp - BitVec.ofNat 8 0)) (hiByte ret)]

theorem saveReturn_trace (ret : Word) (b : Bool) (s : State) :
    (saveReturn ret b s).trace = s.saveEvents ret b ++ s.trace := by
  rw [saveReturn, push_trace, pushWord_regs, pushWord, push_event, push_event, push_trace, push_event, push_regs,
    push_trace, State.saveEvents, BitVec.sub_zero]
  rfl

theorem enterMasked_event (ret : Word) (b : Bool) (s : State) : (enterMasked ret b s).event = s.event :=
  ((push_event _ _).trans (push_event _ _)).trans (push_event _ _)

/-- The two vector reads of an entry and then its saves, newest first. -/
def State.entryEvents (s : State) (ret : Word) (b : Bool) (vector : Word) : List BusEvent :=
  [s.event .read (vector + 1) (s.peek (vector + 1)), s.event .read vector (s.peek vector)] ++ s.saveEvents ret b

/-- With its vector in the cartridge, the bytes an entry reads are those that stood there before it. -/
theorem enterHandler_trace {s : State} (hs : s.MemOk) (ret : Word) (b : Bool) {vector : Word}
    (hlow : 0x6000 ≤ vector.toNat) (hhigh : 0x6000 ≤ (vector + 1).toNat) :
    (enterHandler ret b vector s).trace = s.entryEvents ret b vector ++ s.trace := by
  have hpushed := enterMasked_pushed hs ret b
  rw [enterHandler_eq, State.setPc_trace, read16_storage (.inr hlow) (.inr hhigh), enterMasked_event,
    hpushed.peek_cart hlow, hpushed.peek_cart hhigh, State.entryEvents, List.append_assoc, ← saveReturn_trace]
  rfl

/-! ### The entry of a step -/

/-- `t` is `s` after an interrupt entry with its vector in the cartridge. -/
structure Entered (vector : Word) (s t : State) : Prop where
  pushed : Pushed [hiByte s.regs.pc, loByte s.regs.pc, s.regs.p.pushed false] s t
  ctl : t.ctl = { s.ctl with stepCycles := s.ctl.stepCycles + 7 }
  regs : t.regs =
    { s.regs with pc := s.peekWord vector, sp := s.regs.sp - 3, p := { s.regs.p with i := true } }
  trace : t.trace = s.entryEvents s.regs.pc false vector ++ s.trace

theorem Entered.interruptEntry {s : State} (hs : s.MemOk) {vector : Word} (hlow : 0x6000 ≤ vector.toNat)
    (hhigh : 0x6000 ≤ (vector + 1).toNat) : Entered vector s (Machine.interruptEntry vector s) where
  pushed := (enterHandler_pushed hs _ _ hlow hhigh).reads (OnlyReads.of_eq rfl rfl rfl rfl rfl rfl rfl) ⟨rfl, rfl, rfl⟩
  ctl := by rw [Machine.interruptEntry, State.addCycles_ctl, enterHandler_ctl]
  regs := by
    rw [Machine.interruptEntry, State.addCycles_regs, enterHandler_regs, enterHandler_vector hs _ _ hlow hhigh]
    rfl
  trace := enterHandler_trace hs _ _ hlow hhigh

/-- A byte a read would give does not depend on the control state. -/
theorem State.peek_setCtl (s : State) (c : Control) (a : Word) : ({ s with ctl := c } : State).peek a = s.peek a := by
  unfold State.peek readRegion
  split <;> rfl

theorem State.peekWord_setCtl (s : State) (c : Control) (a : Word) :
    ({ s with ctl := c } : State).peekWord a = s.peekWord a := by
  simp only [State.peekWord, State.peek_setCtl]

end Sys2Proof.Machine

namespace Sys2Proof

open Sys2Proof.Machine

/-- Settles O28: both entries are `InterruptEntry` at the started step, which differs from the state before it by its control
state alone; their vectors stand in the cartridge. -/
theorem interruptEntrySavesAndVectors : Obligations.InterruptEntrySavesAndVectors := by
  intro s hs started saved slot ev events ctl'
  have hstarted : started.MemOk := State.stepStable_memOk.ctl s _ hs
  have hcleared : started.clearNmi.MemOk := State.stepStable_memOk.ctl s _ hs
  have hnmi : Entered nmiVector started.clearNmi (nmiStep s) := Entered.interruptEntry hcleared (by decide) (by decide)
  have hirq : Entered irqVector started (irqStep s) := Entered.interruptEntry hstarted (by decide) (by decide)
  have hword : started.clearNmi.peekWord nmiVector = s.peekWord nmiVector := s.peekWord_setCtl _ _
  have hword' : started.peekWord irqVector = s.peekWord irqVector := s.peekWord_setCtl _ _
  have hcount : 0 + s.ctl.stallCycles + 7 = s.ctl.stallCycles + 7 := by rw [Nat.zero_add]
  have hevents (c : Control) (vector : Word) (hpc : c.instrPc = s.regs.pc) (hcycle : c.instrCycle = s.ctl.cyclesTotal) :
      ({ s with ctl := c } : State).entryEvents s.regs.pc false vector ++ s.trace = events vector := by
    simp only [State.entryEvents, State.saveEvents, State.event, State.peek_setCtl, hpc, hcycle]
    rfl
  refine ⟨hnmi.pushed, ?_, ?_, ?_, hirq.pushed, ?_, ?_, ?_⟩
  · exact hnmi.ctl.trans (congrArg (fun n : Nat => { ctl' with nmiPending := false, stepCycles := n }) hcount)
  · rw [hnmi.regs, hword]
    rfl
  · exact hnmi.trace.trans (hevents _ nmiVector rfl rfl)
  · exact hirq.ctl.trans (congrArg (fun n : Nat => { ctl' with stepCycles := n }) hcount)
  · rw [hirq.regs, hword']
    rfl
  · exact hirq.trace.trans (hevents _ irqVector rfl rfl)

end Sys2Proof
end

section
/-! OAM DMA (60_exceptions.md R770, R771): the copy as a run of single bytes, what one byte does to each part of the machine, what
`n` bytes do, by induction on `n`, and the statement about 256. -/

namespace Sys2Proof.Machine

/-! ### The copy as a run of bytes -/

/-- The address byte `i` of page `v` is copied from. -/
def dmaSource (v : Byte) (i : Nat) : Word := wordOf v (BitVec.ofNat 8 i)

theorem dmaSource_toNat (v : Byte) {i : Nat} (hi : i < 256) : (dmaSource v i).toNat = v.toNat * 256 + i := by
  rw [dmaSource, wordOf_toNat, BitVec.toNat_ofNat, Nat.mod_eq_of_lt hi]

theorem dmaSource_eq_ofNat (v : Byte) {i : Nat} (hi : i < 256) : dmaSource v i = BitVec.ofNat 16 (v.toNat * 256 + i) := by
  have := v.isLt
  apply BitVec.eq_of_toNat_eq
  rw [dmaSource_toNat v hi, BitVec.toNat_ofNat]
  omega

/-- The state after the first `n` bytes of OAM DMA from page `v`. -/
def afterDma (v : Byte) (n : Nat) (s : State) : State :=
  match n with
  | 0 => s
  | k + 1 => dmaByte v k (afterDma v k s)

/-- The byte that OAM DMA from page `v` reads in its pair `i`. -/
def dmaCopied (v : Byte) (s : State) (i : Nat) : Byte := (afterDma v i s).peek (dmaSource v i)

/-- The model's own loop, which counts down, goes through the states `afterDma`. -/
theorem dmaBytes_afterDma (v : Byte) (left n : Nat) (s : State) :
    dmaBytes v left n (afterDma v n s) = afterDma v (n + left) s := by
  induction left generalizing n with
  | zero => rfl
  | succ k ih =>
    have hnext : n + 1 + k = n + (k + 1) := by omega
    exact (ih (n + 1)).trans (by rw [hnext])

theorem oamDma_eq (v : Byte) (s : State) :
    oamDma v s = (afterDma v 256 s).addCycles (513 + (s.ctl.instrCycle + s.ctl.stepBase) % 2) := by
  rw [oamDma]
  exact congrArg (State.addCycles · _) (dmaBytes_afterDma v 256 0 s)

/-! ### One byte -/

/-- A byte is one bus read, then its store in OAM, which is where OAMADDR points (R770, R814). -/
theorem dmaByte_eq (v : Byte) (i : Nat) (s : State) :
    dmaByte v i s =
      { (busRead (dmaSource v i) s).2 with
        ppu := Ppu.writeOam
          { (busRead (dmaSource v i) s).2.ppu with ioLatch := s.peek (dmaSource v i) } (s.peek (dmaSource v i))
        busLatch := s.peek (dmaSource v i)
        trace :=
          (busRead (dmaSource v i) s).2.event .write 0x2004 (s.peek (dmaSource v i)) ::
            (busRead (dmaSource v i) s).2.trace } := plainWrite_oamData _ _

theorem dmaByte_ppu (v : Byte) (i : Nat) (s : State) :
    (dmaByte v i s).ppu =
      { s.ppu with
        oam := Store.write s.ppu.oam s.ppu.oamAddr.toNat (oamMask s.ppu.oamAddr (s.peek (dmaSource v i)))
        oamAddr := s.ppu.oamAddr + 1, ioLatch := s.peek (dmaSource v i)
        vblank := (dmaByte v i s).ppu.vblank, w := (dmaByte v i s).ppu.w, v := (dmaByte v i s).ppu.v,
        readBuffer := (dmaByte v i s).ppu.readBuffer } := by
  rw [dmaByte_eq, Ppu.writeOam, (OnlyReads.busRead (dmaSource v i) s).ppu]

/-- From outside the PPU's window a byte changes OAM, OAMADDR and `io_latch` alone. -/
theorem dmaByte_ppu_quiet {v : Byte} {i : Nat} (s : State)
    (h : ¬ (0x2000 ≤ (dmaSource v i).toNat ∧ (dmaSource v i).toNat < 0x4000)) :
    (dmaByte v i s).ppu =
      { s.ppu with
        oam := (dmaByte v i s).ppu.oam, oamAddr := s.ppu.oamAddr + 1, ioLatch := (dmaByte v i s).ppu.ioLatch } := by
  rw [dmaByte_eq, Ppu.writeOam, busRead_ppu_eq s h]

theorem busRead_event (a : Word) (s : State) : (busRead a s).2.event = s.event := by
  have hframe : (busRead a s).2.ppu.frame = s.ppu.frame := by rw [(OnlyReads.busRead a s).ppu]
  unfold State.event
  rw [hframe, busRead_ctl, busRead_inputs]

theorem dmaByte_event (v : Byte) (i : Nat) (s : State) : (dmaByte v i s).event = s.event := by
  have hread := busRead_event (dmaSource v i) s
  rw [dmaByte_eq]
  exact hread

/-- A byte is two events, the read's first. -/
theorem dmaByte_trace (v : Byte) (i : Nat) (s : State) :
    (dmaByte v i s).trace =
      s.event .write 0x2004 (s.peek (dmaSource v i)) :: s.event .read (dmaSource v i) (s.peek (dmaSource v i)) ::
        s.trace := by
  rw [dmaByte_eq, busRead_event, busRead_trace]

theorem dmaByte_apu (v : Byte) (i : Nat) (s : State) : (dmaByte v i s).apu = (busRead (dmaSource v i) s).2.apu := by
  rw [dmaByte_eq]

theorem dmaByte_pads (v : Byte) (i : Nat) (s : State) : (dmaByte v i s).pads = (busRead (dmaSource v i) s).2.pads := by
  rw [dmaByte_eq]

/-! ### A run of bytes -/

theorem SameCore.afterDma (v : Byte) (n : Nat) (s : State) : SameCore s (Machine.afterDma v n s) := by
  induction n with
  | zero => exact SameCore.refl s
  | succ k ih => exact ih.trans (SameCore.dmaByte v k _)

theorem State.MemOk.afterDma {s : State} (h : s.MemOk) (v : Byte) (n : Nat) : (Machine.afterDma v n s).MemOk := by
  induction n with
  | zero => exact h
  | succ k ih => exact State.stepStable_memOk.plainWrite _ _ (State.stepStable_memOk.busRead _ ih)

theorem afterDma_event (v : Byte) (n : Nat) (s : State) : (afterDma v n s).event = s.event := by
  induction n with
  | zero => rfl
  | succ k ih => exact (dmaByte_event v k _).trans ih

/-- The two events of pair `i`, the read's first. -/
def State.dmaEvents (s : State) (v : Byte) (i : Nat) : List BusEvent :=
  [s.event .read (dmaSource v i) (dmaCopied v s i), s.event .write 0x2004 (dmaCopied v s i)]

theorem afterDma_trace (v : Byte) (n : Nat) (s : State) :
    (afterDma v n s).trace = ((List.range n).flatMap (s.dmaEvents v)).reverse ++ s.trace := by
  induction n with
  | zero => rfl
  | succ k ih =>
    have hpair : (afterDma v (k + 1) s).trace = (s.dmaEvents v k).reverse ++ (afterDma v k s).trace := by
      rw [afterDma, dmaByte_trace, afterDma_event]
      rfl
    rw [hpair, ih, List.range_succ, List.flatMap_append, List.flatMap_singleton, List.reverse_append, List.append_assoc]

/-- Bytes of storage are those that stood there before the copy: it writes no storage. -/
theorem dmaCopied_storage (v : Byte) (s : State) {i : Nat} (h : isStorage (dmaSource v i) = true) :
    dmaCopied v s i = s.peek (dmaSource v i) :=
  have hcore := SameCore.afterDma v i s
  State.peek_congr hcore.ram hcore.cart h

/-! ### The PPU after a run of bytes -/

theorem afterDma_ppu (v : Byte) (n : Nat) (s : State) :
    (afterDma v n s).ppu =
      { s.ppu with
        oam := (afterDma v n s).ppu.oam, oamAddr := s.ppu.oamAddr + BitVec.ofNat 8 n,
        ioLatch := (afterDma v n s).ppu.ioLatch, vblank := (afterDma v n s).ppu.vblank, w := (afterDma v n s).ppu.w,
        v := (afterDma v n s).ppu.v, readBuffer := (afterDma v n s).ppu.readBuffer } := by
  induction n with
  | zero => simp [afterDma]
  | succ k ih =>
    have haddr : s.ppu.oamAddr + BitVec.ofNat 8 k + 1 = s.ppu.oamAddr + BitVec.ofNat 8 (k + 1) := by bv_omega
    rw [afterDma, dmaByte_ppu, ih, haddr]

theorem afterDma_oamAddr (v : Byte) (n : Nat) (s : State) :
    (afterDma v n s).ppu.oamAddr = s.ppu.oamAddr + BitVec.ofNat 8 n := by rw [afterDma_ppu]

/-- Copied from outside the PPU's window, `n` bytes change OAM, OAMADDR and `io_latch` alone. -/
theorem afterDma_ppu_quiet {v : Byte} (s : State) {n : Nat}
    (h : ∀ i, i < n → ¬ (0x2000 ≤ (dmaSource v i).toNat ∧ (dmaSource v i).toNat < 0x4000)) :
    (afterDma v n s).ppu =
      { s.ppu with
        oam := (afterDma v n s).ppu.oam, oamAddr := s.ppu.oamAddr + BitVec.ofNat 8 n,
        ioLatch := (afterDma v n s).ppu.ioLatch } := by
  induction n with
  | zero => simp [afterDma]
  | succ k ih =>
    have haddr : s.ppu.oamAddr + BitVec.ofNat 8 k + 1 = s.ppu.oamAddr + BitVec.ofNat 8 (k + 1) := by bv_omega
    rw [afterDma, dmaByte_ppu_quiet _ (h k (Nat.lt_succ_self k)), ih fun i hi => h i (Nat.lt_succ_of_lt hi), haddr]

theorem afterDma_oam_succ (v : Byte) (n : Nat) (s : State) :
    (afterDma v (n + 1) s).ppu.oam =
      Store.write (afterDma v n s).ppu.oam ((s.ppu.oamAddr.toNat + n) % 256)
        (oamMask (BitVec.ofNat 8 (s.ppu.oamAddr.toNat + n)) (dmaCopied v s n)) := by
  have haddr : s.ppu.oamAddr + BitVec.ofNat 8 n = BitVec.ofNat 8 (s.ppu.oamAddr.toNat + n) := by bv_omega
  rw [afterDma, dmaByte_ppu, afterDma_oamAddr, haddr, BitVec.toNat_ofNat]
  rfl

/-- While the bytes copied do not exceed a page, no byte overwrites another: each stands at its own place, from OAMADDR on and
wrapping. -/
theorem afterDma_oam {s : State} (hs : s.MemOk) (v : Byte) {n : Nat} (hn : n ≤ 256) :
    ∀ i, i < n →
      Store.read (afterDma v n s).ppu.oam ((s.ppu.oamAddr.toNat + i) % 256) =
        oamMask (BitVec.ofNat 8 (s.ppu.oamAddr.toNat + i)) (dmaCopied v s i) := by
  induction n with
  | zero => exact fun i hi => absurd hi (Nat.not_lt_zero i)
  | succ k ih =>
    intro i hi
    obtain ⟨hwf, -⟩ := (hs.afterDma v k).ppu.oam
    rw [afterDma_oam_succ]
    rcases Nat.lt_succ_iff_lt_or_eq.mp hi with hlt | rfl
    · rw [Store.read_write_ne hwf _ (by omega)]
      exact ih (by omega) i hlt
    · exact Store.read_write_self hwf _ _

/-! ### The sound unit and the ports after a run of bytes -/

/-- Only a read of $4015 reaches the sound unit. -/
theorem afterDma_apu_eq {v : Byte} (s : State) {m n : Nat} (hmn : m ≤ n)
    (h : ∀ i, m ≤ i → i < n → (dmaSource v i).toNat ≠ 0x4015) : (afterDma v n s).apu = (afterDma v m s).apu := by
  induction n, hmn using Nat.le_induction with
  | base => rfl
  | succ k hmk ih =>
    rw [afterDma, dmaByte_apu, busRead_apu_eq _ (h k hmk (Nat.lt_succ_self k))]
    exact ih fun i hmi hik => h i hmi (Nat.lt_succ_of_lt hik)

/-- Only reads of $4016 and $4017 reach the ports. -/
theorem afterDma_pads_eq {v : Byte} (s : State) {m n : Nat} (hmn : m ≤ n)
    (h : ∀ i, m ≤ i → i < n → (dmaSource v i).toNat ≠ 0x4016 ∧ (dmaSource v i).toNat ≠ 0x4017) :
    (afterDma v n s).pads = (afterDma v m s).pads := by
  induction n, hmn using Nat.le_induction with
  | base => rfl
  | succ k hmk ih =>
    rw [afterDma, dmaByte_pads, busRead_pads_eq _ (h k hmk (Nat.lt_succ_self k))]
    exact ih fun i hmi hik => h i hmi (Nat.lt_succ_of_lt hik)

/-- Page $40 holds $4015 as its byte $15. -/
theorem afterDma_apu_statusPage (s : State) : (afterDma 0x40 256 s).apu = { s.apu with frameIrq := false } := by
  have hstatus : (afterDma 0x40 0x16 s).apu = (afterDma 0x40 0x15 s).apu.afterStatusRead := dmaByte_apu 0x40 0x15 _
  have hsource {i : Nat} (hi : i < 256) : (dmaSource 0x40 i).toNat = 0x4000 + i := dmaSource_toNat 0x40 hi
  rw [afterDma_apu_eq s (m := 0x16) (by decide) fun i hlo hhi => by rw [hsource hhi]; omega, hstatus,
    afterDma_apu_eq s (m := 0) (by decide) fun i _ hhi => by rw [hsource (by omega)]; omega]
  rfl

/-- Page $40 holds $4016 and $4017 as its bytes $16 and $17. -/
theorem afterDma_pads_statusPage (s : State) :
    (afterDma 0x40 256 s).pads = ((s.pads.read1 s.inputs).2.read2 s.inputs).2 := by
  have hport1 : (afterDma 0x40 0x17 s).pads =
      ((afterDma 0x40 0x16 s).pads.read1 (afterDma 0x40 0x16 s).inputs).2 := dmaByte_pads 0x40 0x16 _
  have hport2 : (afterDma 0x40 0x18 s).pads =
      ((afterDma 0x40 0x17 s).pads.read2 (afterDma 0x40 0x17 s).inputs).2 := dmaByte_pads 0x40 0x17 _
  have hinputs (n : Nat) : (afterDma 0x40 n s).inputs = s.inputs := (SameCore.afterDma 0x40 n s).inputs
  have hsource {i : Nat} (hi : i < 256) : (dmaSource 0x40 i).toNat = 0x4000 + i := dmaSource_toNat 0x40 hi
  rw [afterDma_pads_eq s (m := 0x18) (by decide) fun i hlo hhi => by rw [hsource hhi]; omega, hport2, hport1, hinputs,
    hinputs, afterDma_pads_eq s (m := 0) (by decide) fun i _ hhi => by rw [hsource (by omega)]; omega]
  rfl

end Sys2Proof.Machine

namespace Sys2Proof

open Sys2Proof.Machine

/-- Settles O42: the write to $4014 changes only the latch and the trace; from there on the 256 bytes are `afterDma`. -/
theorem oamDmaCopiesAPage : Obligations.OamDmaCopiesAPage := by
  intro s v hs t source event
  let d : State := s.conclude .write s.ctl.instrCycle 0x4014 v
  have hd : d.MemOk := State.stepStable_memOk.conclude _ _ _ _ _ hs
  have ht : t = (afterDma v 256 d).addCycles (513 + (s.ctl.instrCycle + s.ctl.stepBase) % 2) :=
    (busWrite_dma v s).trans (oamDma_eq v d)
  have hsource {i : Nat} (hi : i < 256) : dmaSource v i = source i := dmaSource_eq_ofNat v hi
  obtain ⟨hregs, hctl, hram, hcart, hinputs⟩ := SameCore.afterDma v 256 d
  have hround : d.ppu.oamAddr + BitVec.ofNat 8 256 = d.ppu.oamAddr := BitVec.add_zero _
  rw [ht]
  refine ⟨hregs, hram, hcart, hinputs, ?_, ⟨dmaCopied v d, ?_, ?_, ?_, fun i hi hstorage => ?_, afterDma_oam hd v le_rfl⟩,
    ?_, fun hpage => ?_, fun hpage => ⟨?_, ?_⟩, ?_⟩
  · rw [State.addCycles_ctl, hctl, ← Nat.add_assoc]
    rfl
  · have hpairs : (List.range 256).flatMap (d.dmaEvents v) =
        (List.range 256).flatMap fun i =>
          [event .read (source i) (dmaCopied v d i), event .write 0x2004 (dmaCopied v d i)] :=
      List.flatMap_congr fun i hi => by
        rw [State.dmaEvents, hsource (List.mem_range.mp hi)]
        rfl
    have hown : d.trace = event .write 0x4014 v :: s.trace := rfl
    rw [State.addCycles_trace, afterDma_trace, hpairs, hown, List.reverse_cons, List.append_assoc, List.singleton_append]
  · exact congrArg State.busLatch (dmaByte_eq v 255 (afterDma v 255 d))
  · exact congrArg (fun u : State => u.ppu.ioLatch) (dmaByte_eq v 255 (afterDma v 255 d))
  · rw [← hsource hi] at hstorage ⊢
    exact (dmaCopied_storage v d hstorage).trans (State.conclude_peek s _ _ _ _ hstorage)
  · have hppu := afterDma_ppu v 256 d
    rwa [hround] at hppu
  · have hppu := afterDma_ppu_quiet (v := v) d (n := 256) fun i hi => by rw [dmaSource_toNat v hi]; omega
    rwa [hround] at hppu
  · exact afterDma_apu_eq d (Nat.zero_le 256) fun i _ hi => by rw [dmaSource_toNat v hi]; omega
  · exact afterDma_pads_eq d (Nat.zero_le 256) fun i _ hi => by rw [dmaSource_toNat v hi]; omega
  · intro hpage
    obtain rfl : v = 0x40 := BitVec.eq_of_toNat_eq hpage
    rw [State.addCycles_apu, State.addCycles_pads]
    exact ⟨afterDma_apu_statusPage d, afterDma_pads_statusPage d⟩

end Sys2Proof
end

section
/-! What the CPU's part of a step leaves alone between two ticks (70_reset_and_hazards.md R1001, R1041; 20_memory.md R261), and what
a step can answer: a counted CPU part followed by the tick loop, or the fault raised. -/

namespace Sys2Proof.Machine

/-! ### The device registers a program writes -/

/-- A write of a PPU register reaches the registers, the scroll state and the memories, never the raster or the picture. -/
theorem Ppu.writeReg_frame (c : Cart) (p : Ppu) (r : Nat) (d : Byte) :
    (p.writeReg c r d).2 =
      { p with
        ctrl := (p.writeReg c r d).2.ctrl, mask := (p.writeReg c r d).2.mask, oamAddr := (p.writeReg c r d).2.oamAddr,
        v := (p.writeReg c r d).2.v, t := (p.writeReg c r d).2.t, fineX := (p.writeReg c r d).2.fineX,
        w := (p.writeReg c r d).2.w, ioLatch := (p.writeReg c r d).2.ioLatch, vram := (p.writeReg c r d).2.vram,
        palette := (p.writeReg c r d).2.palette, oam := (p.writeReg c r d).2.oam } := by
  unfold Ppu.writeReg Ppu.writeScroll Ppu.writeAddr Ppu.writeData ppuWrite
  dsimp only
  repeat' split
  all_goals rfl

/-- The sound unit's clocks and samples are the same in `b` as in `a`. -/
structure Apu.SameClocks (a b : Apu) : Prop where
  odd : b.odd = a.odd
  samples : b.samples = a.samples
  samplePhase : b.samplePhase = a.samplePhase

theorem Apu.SameClocks.writeReg (a : Apu) (r : Nat) (d : Byte) : a.SameClocks (a.writeReg r d) := by
  unfold Apu.writeReg
  split <;> exact ⟨rfl, rfl, rfl⟩

theorem Apu.SameClocks.writeFrameCounter (a : Apu) (d : Byte) : a.SameClocks (a.writeFrameCounter d) := by
  unfold Apu.writeFrameCounter
  dsimp only
  split <;> exact ⟨rfl, rfl, rfl⟩

/-! ### Between two ticks -/

theorem SameBetweenTicks.refl (s : State) : SameBetweenTicks s s :=
  ⟨⟨rfl, rfl, rfl, rfl, rfl⟩, ⟨rfl, rfl, rfl, rfl⟩, ⟨rfl, rfl, rfl, rfl, rfl⟩, ⟨rfl, rfl, rfl⟩, rfl,
    ⟨rfl, rfl, rfl, rfl, rfl, rfl⟩, id, ⟨[], rfl⟩⟩

theorem SameBetweenTicks.trans {s t u : State} (h : SameBetweenTicks s t) (k : SameBetweenTicks t u) :
    SameBetweenTicks s u where
  rom := by simp only [k.rom, h.rom, and_self]
  raster := by simp only [k.raster, h.raster, and_self]
  picture := by simp only [k.picture, h.picture, and_self]
  sound := by simp only [k.sound, h.sound, and_self]
  inputs := k.inputs.trans h.inputs
  control := by simp only [k.control, h.control, and_self]
  nmi hs := k.nmi (h.nmi hs)
  trace := by
    obtain ⟨es, hes⟩ := h.trace
    obtain ⟨fs, hfs⟩ := k.trace
    exact ⟨fs ++ es, by rw [hfs, hes, List.append_assoc]⟩

theorem SameBetweenTicks.conclude (s : State) (k : AccessKind) (c : Nat) (a : Word) (v : Byte) :
    SameBetweenTicks s (s.conclude k c a v) :=
  ⟨⟨rfl, rfl, rfl, rfl, rfl⟩, ⟨rfl, rfl, rfl, rfl⟩, ⟨rfl, rfl, rfl, rfl, rfl⟩, ⟨rfl, rfl, rfl⟩, rfl,
    ⟨rfl, rfl, rfl, rfl, rfl, rfl⟩, id, ⟨[_], rfl⟩⟩

/-- A read of a region moves no device's time: its side effects are on latches. -/
theorem SameBetweenTicks.readRegion (a : Word) (s : State) : SameBetweenTicks s (Machine.readRegion a s).2 := by
  obtain ⟨-, hctl, -, htrace, hreads⟩ := readRegion_frame a s
  refine ⟨?_, ?_, ?_, ?_, hreads.inputs, ?_, ?_, ⟨[], htrace⟩⟩
  · rw [hreads.cart]; exact ⟨rfl, rfl, rfl, rfl, rfl⟩
  · rw [hreads.ppu]; exact ⟨rfl, rfl, rfl, rfl⟩
  · rw [hreads.ppu]; exact ⟨rfl, rfl, rfl, rfl, rfl⟩
  · rw [hreads.apu]; exact ⟨rfl, rfl, rfl⟩
  · rw [hctl]; exact ⟨rfl, rfl, rfl, rfl, rfl, rfl⟩
  · rw [hctl]; exact id

/-- A write touches the sound unit's clocks in no region. -/
theorem Written.sameClocks {a : Word} {v : Byte} {s t : State} (h : Written a v s t) : s.apu.SameClocks t.apu := by
  cases h with
  | apuReg h => dsimp only; exact Apu.SameClocks.writeReg _ _ _
  | frameCounter h => exact Apu.SameClocks.writeFrameCounter _ _
  | _ => exact ⟨rfl, rfl, rfl⟩

/-- A write changes the PPU, if at all, by the write of one of its registers. -/
theorem Written.ppu_cases {a : Word} {v : Byte} {s t : State} (h : Written a v s t) :
    t.ppu = s.ppu ∨ t.ppu = (s.ppu.writeReg s.cart (a.toNat % 8) v).2 := by
  cases h with
  | ppuReg h => exact .inr rfl
  | _ => exact .inl rfl

/-- A write latches an NMI or leaves the latch, and never clears it (R730). -/
theorem Written.nmi_latched {a : Word} {v : Byte} {s t : State} (h : Written a v s t) (hs : s.ctl.nmiPending = true) :
    t.ctl.nmiPending = true := by
  cases h with
  | ppuReg h => simp only [State.setPpu_ctl, hs, Bool.true_or]
  | _ => exact hs

theorem SameBetweenTicks.writeRegion (a : Word) (v : Byte) (s : State) :
    SameBetweenTicks s (Machine.writeRegion a v s) := by
  have h := writeRegion_written a v s
  obtain ⟨-, hctl, hinputs, htrace, -⟩ := h.frame
  obtain ⟨hodd, hsamples, hphase⟩ := h.sameClocks
  have hppu : (Machine.writeRegion a v s).ppu = s.ppu ∨
      (Machine.writeRegion a v s).ppu = (s.ppu.writeReg s.cart (a.toNat % 8) v).2 := h.ppu_cases
  refine ⟨h.fixed, ?_, ?_, ⟨hodd, hsamples, hphase⟩, hinputs, ?_, h.nmi_latched, ⟨[], htrace⟩⟩
  · rcases hppu with e | e <;> rw [e]
    · exact ⟨rfl, rfl, rfl, rfl⟩
    · rw [Ppu.writeReg_frame]; exact ⟨rfl, rfl, rfl, rfl⟩
  · rcases hppu with e | e <;> rw [e]
    · exact ⟨rfl, rfl, rfl, rfl, rfl⟩
    · rw [Ppu.writeReg_frame]; exact ⟨rfl, rfl, rfl, rfl, rfl⟩
  · rw [hctl]; exact ⟨rfl, rfl, rfl, rfl, rfl, rfl⟩

/-- Every update a CPU step is made of leaves the devices' time alone. -/
theorem SameBetweenTicks.stable (s : State) : Stable (SameBetweenTicks s) where
  regs _ _ h := ⟨h.rom, h.raster, h.picture, h.sound, h.inputs, h.control, h.nmi, h.trace⟩
  count _ _ _ h := ⟨h.rom, h.raster, h.picture, h.sound, h.inputs, h.control, h.nmi, h.trace⟩
  read t a h := h.trans (SameBetweenTicks.readRegion a t)
  write t a v h := h.trans (SameBetweenTicks.writeRegion a v t)
  conclude t k c a v h := h.trans (SameBetweenTicks.conclude t k c a v)

/-! ### What a step can answer -/

/-- The fault register is clear and `cycles_total` is `n`. -/
def State.CleanAt (n : Nat) (s : State) : Prop := s.ctl.fault = none ∧ s.ctl.cyclesTotal = n

theorem SameBetweenTicks.cleanAt {n : Nat} {s t : State} (h : SameBetweenTicks s t) (hs : s.CleanAt n) : t.CleanAt n := by
  obtain ⟨htotal, -, -, -, hfault, -⟩ := h.control
  obtain ⟨hclear, hn⟩ := hs
  exact ⟨hfault.trans hclear, htotal.trans hn⟩

/-- A step that answers a next state finished a CPU part that raised no fault, or fetched an illegal opcode and raised it. -/
theorem step_cases {s t : State} (h : step s = .next t) :
    s.ctl.fault = none ∧
    ((∃ u result, u.CleanAt s.ctl.cyclesTotal ∧
        (result = .instruction ∨ result = .interrupt .nmi ∨ result = .interrupt .irq) ∧ t = finishStep result u) ∨
      ∃ f u, fetchInstr s.startStep = .illegal f u ∧ t = u.raise f) := by
  cases hfault : s.ctl.fault with
  | some f => rw [step_of_fault hfault] at h; cases h
  | none =>
    have hstart : s.startStep.CleanAt s.ctl.cyclesTotal := ⟨hfault, rfl⟩
    have hentry (vector : Word) (u : State) (hu : u.CleanAt s.ctl.cyclesTotal) :
        (interruptEntry vector u).CleanAt s.ctl.cyclesTotal :=
      ((SameBetweenTicks.stable u).interruptEntry vector (SameBetweenTicks.refl u)).cleanAt hu
    refine ⟨rfl, ?_⟩
    unfold step at h
    split at h
    · cases h
    · cases h
      exact .inl ⟨nmiStep s, _, hentry nmiVector s.startStep.payStall.clearNmi hstart, .inr (.inl rfl), rfl⟩
    · cases h
      exact .inl ⟨irqStep s, _, hentry irqVector s.startStep.payStall hstart, .inr (.inr rfl), rfl⟩
    · cases hfetch : fetchInstr s.startStep with
      | illegal f u =>
        rw [instructionStep_of_illegal hfetch] at h
        cases h
        exact .inr ⟨f, u, rfl, rfl⟩
      | ok i u =>
        obtain ⟨x, hexec⟩ := exec_next i u.payStall
        rw [instructionStep_of_fetched hfetch hexec] at h
        cases h
        have hu : u.CleanAt s.ctl.cyclesTotal :=
          (((SameBetweenTicks.stable _).fetchInstr (SameBetweenTicks.refl _)).1 i u hfetch).cleanAt hstart
        have hx := (SameBetweenTicks.stable u.payStall).exec (SameBetweenTicks.refl _) hexec
        exact .inl ⟨x, _, hx.cleanAt hu, .inl rfl, rfl⟩

/-- A fetch that finds an illegal opcode is one bus read, and names the byte read and its address. -/
theorem fetchInstr_eq_illegal {s u : State} {f : IllegalOp} (h : fetchInstr s = .illegal f u) :
    f = { op := s.peek s.regs.pc, addr := s.regs.pc } ∧ formOf f.op.toNat = none ∧ u = (busRead s.regs.pc s).2 := by
  unfold fetchInstr at h
  dsimp only at h
  split at h
  case h_1 hform => cases h; exact ⟨rfl, hform, rfl⟩
  all_goals cases h

end Sys2Proof.Machine

namespace Sys2Proof

open Sys2Proof.Machine

/-- Settles O53: being the same between ticks is a property the updates of a CPU step keep, so every instruction keeps it. -/
theorem instructionsDoNotAdvanceDevices : Obligations.InstructionsDoNotAdvanceDevices := by
  intro i s
  obtain ⟨t, hexec⟩ := exec_next i s
  exact ⟨t, hexec, (SameBetweenTicks.stable s).exec (SameBetweenTicks.refl s) hexec⟩

/-- Settles O54: of the two things a step can answer, the first counts in `finishStep`, the second reads one byte and raises. -/
theorem stepCountsItsCycles : Obligations.StepCountsItsCycles := by
  intro s t hstep
  obtain ⟨-, ⟨u, result, ⟨hclear, htotal⟩, hresult, rfl⟩ | ⟨f, u, hfetch, rfl⟩⟩ := step_cases hstep
  · obtain ⟨-, -, -, -, hctl, -⟩ := finishStep_frame result u
    refine .inl ⟨by rw [hctl]; exact hclear, u.ctl.stepCycles, ?_, by rw [hctl, ← htotal]⟩
    rw [hctl]
    rcases hresult with rfl | rfl | rfl
    · exact .inl rfl
    · exact .inr (.inl rfl)
    · exact .inr (.inr rfl)
  · obtain ⟨-, -, rfl⟩ := fetchInstr_eq_illegal hfetch
    have hppu := (OnlyReads.busRead s.startStep.regs.pc s.startStep).ppu
    refine .inr ⟨f, rfl, rfl, ?_, ?_, ?_⟩
    · rw [State.raise_ctl, busRead_ctl]; rfl
    · rw [State.raise_ctl, busRead_ctl]; rfl
    · rw [State.raise_ppu, hppu]; rfl

end Sys2Proof
end

section
/-! Every step keeps the devices' counters in range (61_ppu.md R800; 62_apu.md R900; 60_exceptions.md R761), unit by unit, and a
fault register that is set names an illegal opcode at PC (60_exceptions.md R710). -/

namespace Sys2Proof.Machine

/-! ### The picture unit -/

/-- The raster in a frame and at most eight sprites chosen depend on nothing else of the PPU. -/
theorem Ppu.RangeOk.congr {p q : Ppu} (h : p.RangeOk) (hline : q.scanline = p.scanline) (hdot : q.dot = p.dot)
    (hspr : q.spr = p.spr) : q.RangeOk :=
  ⟨hline ▸ h.scanline, hdot ▸ h.dot, hspr ▸ h.count⟩

theorem Ppu.RangeOk.readReg {p : Ppu} (h : p.RangeOk) (c : Cart) (r : Nat) : (p.readReg c r).2.RangeOk := by
  rw [Ppu.readReg_frame]
  exact h.congr rfl rfl rfl

theorem Ppu.RangeOk.writeReg {p : Ppu} (h : p.RangeOk) (c : Cart) (r : Nat) (d : Byte) : (p.writeReg c r d).2.RangeOk := by
  rw [Ppu.writeReg_frame]
  exact h.congr rfl rfl rfl

/-- The scan chooses at most eight sprites (R861). -/
theorem scanSprites_count_le (oam : Memory) (s h left n : Nat) (a : SpriteScan) (ha : a.count ≤ 8) :
    (scanSprites oam s h left n a).count ≤ 8 := by
  induction left generalizing n a with
  | zero => exact ha
  | succ k ih =>
    unfold scanSprites
    split
    · split
      · next hroom => exact ih _ _ hroom
      · exact ha
    · exact ih _ _ ha

theorem Ppu.spriteScan_count_le (p : Ppu) (s : Nat) : (p.spriteScan s).count ≤ 8 :=
  scanSprites_count_le _ _ _ _ _ _ (Nat.zero_le 8)

theorem Ppu.vblankWork_spr (p : Ppu) : p.vblankWork.spr = p.spr := by
  unfold Ppu.vblankWork
  repeat' split
  all_goals rfl

theorem Ppu.pixelWork_spr (c : Cart) (p : Ppu) : (p.pixelWork c).spr = p.spr := by
  unfold Ppu.pixelWork
  split <;> rfl

theorem Ppu.advance_spr (p : Ppu) : p.advance.spr = p.spr := by
  unfold Ppu.advance Ppu.nextLine
  repeat' split
  all_goals rfl

theorem Ppu.bgWork_spr (c : Cart) (p : Ppu) : (p.bgWork c).spr = p.spr := by
  unfold Ppu.bgWork Ppu.fetchStep
  repeat' split
  all_goals rfl

theorem Ppu.scrollWork_spr (p : Ppu) : p.scrollWork.spr = p.spr := by
  unfold Ppu.scrollWork
  repeat' split
  all_goals rfl

/-- The sprite work clears the count, chooses anew, or keeps what was chosen. -/
theorem Ppu.spriteWork_count_le (c : Cart) {p : Ppu} (h : p.spr.count ≤ 8) : (p.spriteWork c).spr.count ≤ 8 := by
  unfold Ppu.spriteWork
  split
  · split
    · exact Nat.zero_le 8
    · exact Ppu.spriteScan_count_le p _
  · exact h

theorem Ppu.renderWork_count_le (c : Cart) {p : Ppu} (h : p.spr.count ≤ 8) : (p.renderWork c).spr.count ≤ 8 := by
  unfold Ppu.renderWork
  split
  · exact Ppu.spriteWork_count_le c (by rw [Ppu.scrollWork_spr, Ppu.bgWork_spr]; exact h)
  · exact h

theorem Ppu.tick_count_le (c : Cart) {p : Ppu} (h : p.spr.count ≤ 8) : (p.tick c).spr.count ≤ 8 := by
  rw [Ppu.tick, Ppu.advance_spr, Ppu.pixelWork_spr]
  exact Ppu.renderWork_count_le c (by rw [Ppu.vblankWork_spr]; exact h)

/-- The advance stays in a frame of 262 lines of 341 dots (R830). -/
theorem Ppu.advance_range {p : Ppu} (hline : p.scanline ≤ 261) (hdot : p.dot ≤ 340) :
    p.advance.scanline ≤ 261 ∧ p.advance.dot ≤ 340 := by
  unfold Ppu.advance Ppu.nextLine
  split
  · split
    · exact ⟨Nat.zero_le _, Nat.zero_le _⟩
    · exact ⟨by dsimp only; omega, Nat.zero_le _⟩
  · next hmid =>
    have : ¬ 340 ≤ p.dot := by simp at hmid; omega
    exact ⟨hline, by dsimp only; omega⟩

theorem Ppu.RangeOk.tick {p : Ppu} (h : p.RangeOk) (c : Cart) : (p.tick c).RangeOk := by
  obtain ⟨q, hsame, htick⟩ := Ppu.tick_advance c p
  obtain ⟨hline, hdot⟩ := Ppu.advance_range (p := q) (by rw [hsame.scanline]; exact h.scanline)
    (by rw [hsame.dot]; exact h.dot)
  exact ⟨htick ▸ hline, htick ▸ hdot, Ppu.tick_count_le c h.count⟩

/-! ### Length counters -/

/-- Every entry of the length table fits a length counter (R930). -/
theorem lengthTable_le (k : Nat) : tableAt lengthTable k ≤ 254 := by
  rcases Nat.lt_or_ge k 32 with h | h
  · revert k; decide
  · rw [tableAt, List.getD_eq_default _ _ h]; exact Nat.zero_le _

theorem LengthOk.clock {enabled : Bool} {length : Nat} (h : LengthOk enabled length) (halt : Bool) :
    LengthOk enabled (lengthClock length halt) := by
  obtain ⟨hle, hoff⟩ := h
  unfold lengthClock
  split
  · exact ⟨hle, hoff⟩
  · exact ⟨by omega, fun he => by rw [hoff he]⟩

theorem LengthOk.load {enabled : Bool} {length : Nat} (h : LengthOk enabled length) (d : Byte) :
    LengthOk enabled (loadLength enabled length d) := by
  cases enabled with
  | true => exact ⟨lengthTable_le _, nofun⟩
  | false => exact h

theorem LengthOk.enable {enabled : Bool} {length : Nat} (h : LengthOk enabled length) (on : Bool) :
    LengthOk on (lengthEnable on length) := by
  cases on with
  | true => exact ⟨h.1, nofun⟩
  | false => exact LengthOk.zero false

/-! ### The channels -/

/-- A pulse channel's part of the APU's ranges. -/
abbrev Pulse.RangeOk (p : Pulse) : Prop := LengthOk p.enabled p.length

/-- The triangle's part of the APU's ranges. -/
abbrev Triangle.RangeOk (t : Triangle) : Prop := LengthOk t.enabled t.length

/-- The noise channel's part of the APU's ranges. -/
structure Noise.RangeOk (n : Noise) : Prop where
  length : LengthOk n.enabled n.length
  lfsr : n.lfsr ≠ 0
  timer : n.timer.toNat < 4068

/-- The DMC's part of the APU's ranges. -/
structure Dmc.RangeOk (m : Dmc) : Prop where
  bits : 1 ≤ m.bitsRemaining ∧ m.bitsRemaining ≤ 8
  timer : m.timer.toNat < 428
  sampleAddr : 0xC000 ≤ m.sampleAddr.toNat ∧ m.sampleAddr.toNat % 64 = 0
  sampleLen : m.sampleLen.toNat % 16 = 1
  bytes : m.bytesRemaining.toNat ≤ 4081

/-- The frame sequencer's part of the APU's ranges. -/
structure FrameSeq.RangeOk (f : FrameSeq) : Prop where
  four : f.fiveStep = false → f.cycle < 29829
  five : f.fiveStep = true → f.cycle < 37281

/-- Each unit of the APU is in its range. -/
structure Apu.UnitsOk (a : Apu) : Prop where
  pulse1 : a.pulse1.RangeOk
  pulse2 : a.pulse2.RangeOk
  triangle : a.triangle.RangeOk
  noise : a.noise.RangeOk
  dmc : a.dmc.RangeOk
  fs : a.fs.RangeOk

/-- The APU's ranges are those of its units. -/
theorem Apu.rangeOk_iff_unitsOk (a : Apu) : a.RangeOk ↔ a.UnitsOk where
  mp h := ⟨h.pulse1, h.pulse2, h.triangle, ⟨h.noise, h.lfsr, h.noiseTimer⟩,
    ⟨h.bits, h.dmcTimer, h.sampleAddr, h.sampleLen, h.bytes⟩, ⟨h.fsFour, h.fsFive⟩⟩
  mpr h := ⟨h.pulse1, h.pulse2, h.triangle, h.noise.length, h.noise.lfsr, h.noise.timer, h.dmc.bits, h.dmc.timer,
    h.dmc.sampleAddr, h.dmc.sampleLen, h.dmc.bytes, h.fs.four, h.fs.five⟩

theorem Pulse.RangeOk.timerStep {p : Pulse} (h : p.RangeOk) : p.timerStep.RangeOk := by
  unfold Pulse.timerStep
  split <;> exact h

theorem Pulse.RangeOk.half {p : Pulse} (h : p.RangeOk) (isPulse1 : Bool) : (p.half isPulse1).RangeOk := by
  unfold Pulse.half Pulse.sweepClock
  split <;> exact LengthOk.clock h p.halt

theorem Triangle.RangeOk.timerStep {t : Triangle} (h : t.RangeOk) : t.timerStep.RangeOk := by
  unfold Triangle.timerStep
  split <;> exact h

/-- A clock moves the shift register down one bit (R937). -/
theorem lfsrNext_getLsbD_of_lt (mode : Bool) (l : BitVec 15) {i : Nat} (hi : i < 14) :
    (lfsrNext mode l).getLsbD i = l.getLsbD (i + 1) := by
  simp [lfsrNext, hi, Nat.add_comm 1 i]

/-- What a clock takes in at the top (R937). -/
theorem lfsrNext_getLsbD_top (mode : Bool) (l : BitVec 15) :
    (lfsrNext mode l).getLsbD 14 = (l.getLsbD 0 ^^ (if mode then l.getLsbD 6 else l.getLsbD 1)) := by
  cases mode <;> simp [lfsrNext, bitAt]

/-- The shift register never becomes 0: its last set bit, at place 0, comes back at the top (R937). -/
theorem lfsrNext_ne_zero (mode : Bool) {l : BitVec 15} (h : l ≠ 0) : lfsrNext mode l ≠ 0 := by
  intro hzero
  have hbits (i : Nat) : (lfsrNext mode l).getLsbD i = false := by rw [hzero]; exact BitVec.getLsbD_zero
  have hupper (j : Nat) (hj : j < 14) : l.getLsbD (j + 1) = false := by
    rw [← lfsrNext_getLsbD_of_lt mode l hj, hbits]
  have hlast : l.getLsbD 0 = false := by
    have htop := hbits 14
    rw [lfsrNext_getLsbD_top, hupper 0 (by decide), hupper 5 (by decide), ite_self, Bool.xor_false] at htop
    exact htop
  have hall (i : Nat) (hi : i < 15) : l.getLsbD i = false := by
    cases i with
    | zero => exact hlast
    | succ j => exact hupper j (Nat.lt_of_succ_lt_succ hi)
  exact h (BitVec.eq_of_getLsbD_eq fun i hi => (hall i hi).trans BitVec.getLsbD_zero.symm)

/-- Every entry of the noise period table is at most 4068 (R937). -/
theorem noiseTable_le (k : Nat) : tableAt noiseTable k ≤ 4068 := by
  rcases Nat.lt_or_ge k 16 with h | h
  · revert k; decide
  · rw [tableAt, List.getD_eq_default _ _ h]; exact Nat.zero_le _

/-- Every entry of the DMC rate table is at most 428 (R960). -/
theorem dmcTable_le (k : Nat) : tableAt dmcTable k ≤ 428 := by
  rcases Nat.lt_or_ge k 16 with h | h
  · revert k; decide
  · rw [tableAt, List.getD_eq_default _ _ h]; exact Nat.zero_le _

theorem Noise.RangeOk.timerStep {n : Noise} (h : n.RangeOk) : n.timerStep.RangeOk := by
  unfold Noise.timerStep
  split
  · refine ⟨h.length, lfsrNext_ne_zero _ h.lfsr, ?_⟩
    have := noiseTable_le n.periodIndex.toNat
    rw [BitVec.toNat_ofNat]
    omega
  · next hne =>
    refine ⟨h.length, h.lfsr, ?_⟩
    have := h.timer
    have : n.timer.toNat ≠ 0 := fun e => hne (BitVec.eq_of_toNat_eq e)
    show (n.timer - 1).toNat < 4068
    bv_omega

theorem Dmc.RangeOk.clockOutput {m : Dmc} (h : m.RangeOk) : m.clockOutput.RangeOk := by
  obtain ⟨hlow, hhigh⟩ := h.bits
  unfold Dmc.clockOutput
  split
  · split <;> exact ⟨⟨Nat.le_add_left 1 7, le_rfl⟩, h.timer, h.sampleAddr, h.sampleLen, h.bytes⟩
  · exact ⟨⟨by dsimp only; omega, by dsimp only; omega⟩, h.timer, h.sampleAddr, h.sampleLen, h.bytes⟩

theorem Dmc.RangeOk.timerStep {m : Dmc} (h : m.RangeOk) : m.timerStep.RangeOk := by
  unfold Dmc.timerStep
  split
  · refine Dmc.RangeOk.clockOutput ⟨h.bits, ?_, h.sampleAddr, h.sampleLen, h.bytes⟩
    have := dmcTable_le m.rateIndex.toNat
    rw [BitVec.toNat_ofNat]
    omega
  · next hne =>
    refine ⟨h.bits, ?_, h.sampleAddr, h.sampleLen, h.bytes⟩
    have := h.timer
    have : m.timer.toNat ≠ 0 := fun e => hne (BitVec.eq_of_toNat_eq e)
    show (m.timer - 1).toNat < 428
    bv_omega

/-- A sample length is one more than a multiple of 16, so at most 4081 (R920). -/
theorem Dmc.RangeOk.restart {m : Dmc} (h : m.RangeOk) : m.restart.RangeOk := by
  have hlen := h.sampleLen
  have hlt := m.sampleLen.isLt
  exact ⟨h.bits, h.timer, h.sampleAddr, h.sampleLen, by rw [Dmc.restart]; dsimp only; omega⟩

theorem Dmc.RangeOk.enable {m : Dmc} (h : m.RangeOk) (on : Bool) : (m.enable on).RangeOk := by
  unfold Dmc.enable
  split
  · exact ⟨h.bits, h.timer, h.sampleAddr, h.sampleLen, Nat.zero_le _⟩
  · split
    · exact h.restart
    · exact h

theorem Dmc.RangeOk.writeControl {m : Dmc} (h : m.RangeOk) (d : Byte) : (m.writeControl d).RangeOk :=
  ⟨h.bits, h.timer, h.sampleAddr, h.sampleLen, h.bytes⟩

theorem Dmc.RangeOk.writeLevel {m : Dmc} (h : m.RangeOk) (d : Byte) : (m.writeLevel d).RangeOk :=
  ⟨h.bits, h.timer, h.sampleAddr, h.sampleLen, h.bytes⟩

theorem Dmc.RangeOk.writeAddr {m : Dmc} (h : m.RangeOk) (d : Byte) : (m.writeAddr d).RangeOk := by
  have haddr : (m.writeAddr d).sampleAddr.toNat = 0xC000 + d.toNat * 64 := by
    have := d.isLt
    simp [Dmc.writeAddr]
    omega
  exact ⟨h.bits, h.timer, by rw [haddr]; omega, h.sampleLen, h.bytes⟩

theorem Dmc.RangeOk.writeLen {m : Dmc} (h : m.RangeOk) (d : Byte) : (m.writeLen d).RangeOk := by
  have hlen : (m.writeLen d).sampleLen.toNat = d.toNat * 16 + 1 := by
    have := d.isLt
    simp [Dmc.writeLen]
    omega
  exact ⟨h.bits, h.timer, h.sampleAddr, by rw [hlen]; omega, h.bytes⟩

/-- Counting down one byte of a sample that has bytes left. -/
theorem Dmc.RangeOk.takeByte {m : Dmc} (h : m.RangeOk) (hleft : m.bytesRemaining ≠ 0) (b : Byte) : (m.takeByte b).RangeOk := by
  have := h.bytes
  have : m.bytesRemaining.toNat ≠ 0 := fun e => hleft (BitVec.eq_of_toNat_eq e)
  have hcount : (m.bytesRemaining - 1).toNat ≤ 4081 := by bv_omega
  exact ⟨h.bits, h.timer, h.sampleAddr, h.sampleLen, hcount⟩

/-! ### The sound unit -/

/-- A quarter-frame clock changes no counter that has a range. -/
theorem Apu.UnitsOk.quarterFrame {a : Apu} (h : a.UnitsOk) : a.quarterFrame.UnitsOk :=
  ⟨h.pulse1, h.pulse2, h.triangle, ⟨h.noise.length, h.noise.lfsr, h.noise.timer⟩, h.dmc, h.fs⟩

theorem Apu.UnitsOk.halfFrame {a : Apu} (h : a.UnitsOk) : a.halfFrame.UnitsOk :=
  ⟨h.pulse1.half true, h.pulse2.half false, LengthOk.clock h.triangle _,
    ⟨h.noise.length.clock _, h.noise.lfsr, h.noise.timer⟩, h.dmc, h.fs⟩

/-- The sequencer's count may become any number in the range of its mode. -/
theorem Apu.UnitsOk.setFsCycle {a : Apu} (h : a.UnitsOk) {k : Nat} (hfour : a.fs.fiveStep = false → k < 29829)
    (hfive : a.fs.fiveStep = true → k < 37281) : (a.setFsCycle k).UnitsOk :=
  ⟨h.pulse1, h.pulse2, h.triangle, h.noise, h.dmc, ⟨hfour, hfive⟩⟩

theorem Apu.UnitsOk.setFsCycle_zero {a : Apu} (h : a.UnitsOk) : (a.setFsCycle 0).UnitsOk :=
  h.setFsCycle (fun _ => Nat.succ_pos _) fun _ => Nat.succ_pos _

/-- The frame interrupt has no range. -/
theorem Apu.UnitsOk.setFrameIrq {a : Apu} (h : a.UnitsOk) (irq : Bool) : ({ a with frameIrq := irq } : Apu).UnitsOk :=
  ⟨h.pulse1, h.pulse2, h.triangle, h.noise, h.dmc, h.fs⟩

/-- The count moves on below the end of its sequence, and returns to 0 there (R940). -/
theorem Apu.UnitsOk.frameStep {a : Apu} (h : a.UnitsOk) : a.frameStep.UnitsOk := by
  have hend := h.quarterFrame.halfFrame
  unfold Apu.frameStep
  dsimp only
  split
  · next hmode =>
    have hlt := h.fs.five hmode
    have hcount (hne : a.fs.cycle + 1 ≠ 37281) : (a.setFsCycle (a.fs.cycle + 1)).UnitsOk :=
      h.setFsCycle (fun hfour => by rw [hmode] at hfour; cases hfour) fun _ => by omega
    unfold Apu.fiveStep
    split
    · exact (hcount (by omega)).quarterFrame
    · split
      · exact (hcount (by omega)).quarterFrame.halfFrame
      · split
        · exact hend.setFsCycle_zero
        · exact hcount ‹_›
  · next hmode =>
    have hlt := h.fs.four (by simpa using hmode)
    have hcount (hne : a.fs.cycle + 1 ≠ 29829) : (a.setFsCycle (a.fs.cycle + 1)).UnitsOk :=
      h.setFsCycle (fun _ => by omega) fun hfive => absurd hfive hmode
    unfold Apu.fourStep
    split
    · exact (hcount (by omega)).quarterFrame
    · split
      · exact (hcount (by omega)).quarterFrame.halfFrame
      · split
        · exact (hend.setFrameIrq _).setFsCycle_zero
        · exact hcount ‹_›

theorem Apu.UnitsOk.pulseSteps {a : Apu} (h : a.UnitsOk) : a.pulseSteps.UnitsOk := by
  unfold Apu.pulseSteps
  split
  · exact ⟨h.pulse1.timerStep, h.pulse2.timerStep, h.triangle, h.noise, h.dmc, h.fs⟩
  · exact h

theorem Apu.UnitsOk.tickUnits {a : Apu} (h : a.UnitsOk) : a.tickUnits.UnitsOk := by
  have hseq := h.frameStep
  have htri : ({ a.frameStep with triangle := a.frameStep.triangle.timerStep } : Apu).UnitsOk :=
    ⟨hseq.pulse1, hseq.pulse2, hseq.triangle.timerStep, hseq.noise, hseq.dmc, hseq.fs⟩
  have hpulse := htri.pulseSteps
  exact ⟨hpulse.pulse1, hpulse.pulse2, hpulse.triangle, hpulse.noise.timerStep, hpulse.dmc.timerStep, hpulse.fs⟩

/-- The byte taken, the sample restarted or the interrupt raised (R962, R963). -/
theorem Apu.UnitsOk.takeByte {a : Apu} (h : a.UnitsOk) (hwants : a.dmc.wantsByte = true) (b : Byte) :
    (a.takeByte b).UnitsOk := by
  have hleft : a.dmc.bytesRemaining ≠ 0 := by
    simp [Dmc.wantsByte] at hwants
    exact hwants.2
  have htaken := h.dmc.takeByte hleft b
  unfold Apu.takeByte
  dsimp only
  split
  · split
    · exact ⟨h.pulse1, h.pulse2, h.triangle, h.noise, htaken.restart, h.fs⟩
    · exact ⟨h.pulse1, h.pulse2, h.triangle, h.noise, htaken, h.fs⟩
  · exact ⟨h.pulse1, h.pulse2, h.triangle, h.noise, htaken, h.fs⟩

theorem Apu.UnitsOk.writeFrameCounter {a : Apu} (h : a.UnitsOk) (d : Byte) : (a.writeFrameCounter d).UnitsOk := by
  have hset (irq : Bool) :
      ({ a with fs := { fiveStep := bitAt d 7, irqInhibit := bitAt d 6, cycle := 0 }, frameIrq := irq } : Apu).UnitsOk :=
    ⟨h.pulse1, h.pulse2, h.triangle, h.noise, h.dmc, ⟨fun _ => Nat.succ_pos _, fun _ => Nat.succ_pos _⟩⟩
  unfold Apu.writeFrameCounter
  dsimp only
  split
  · exact (hset _).quarterFrame.halfFrame
  · exact hset _

theorem Apu.UnitsOk.writeEnable {a : Apu} (h : a.UnitsOk) (d : Byte) : (a.writeEnable d).UnitsOk :=
  ⟨LengthOk.enable h.pulse1 _, LengthOk.enable h.pulse2 _, LengthOk.enable h.triangle _,
    ⟨LengthOk.enable h.noise.length _, h.noise.lfsr, h.noise.timer⟩, h.dmc.enable _, h.fs⟩

/-- Of the writes of $4000-$4013 only those of a length and of the DMC's address and length reach a counter with a range. -/
theorem Apu.UnitsOk.writeReg {a : Apu} (h : a.UnitsOk) (r : Nat) (d : Byte) : (a.writeReg r d).UnitsOk := by
  obtain ⟨hpulse1, hpulse2, htri, hnoise, hdmc, hfs⟩ := h
  unfold Apu.writeReg
  split
  case h_4 => exact ⟨LengthOk.load hpulse1 d, hpulse2, htri, hnoise, hdmc, hfs⟩
  case h_8 => exact ⟨hpulse1, LengthOk.load hpulse2 d, htri, hnoise, hdmc, hfs⟩
  case h_11 => exact ⟨hpulse1, hpulse2, LengthOk.load htri d, hnoise, hdmc, hfs⟩
  case h_12 => exact ⟨hpulse1, hpulse2, htri, ⟨hnoise.length, hnoise.lfsr, hnoise.timer⟩, hdmc, hfs⟩
  case h_13 => exact ⟨hpulse1, hpulse2, htri, ⟨hnoise.length, hnoise.lfsr, hnoise.timer⟩, hdmc, hfs⟩
  case h_14 => exact ⟨hpulse1, hpulse2, htri, ⟨hnoise.length.load d, hnoise.lfsr, hnoise.timer⟩, hdmc, hfs⟩
  case h_15 => exact ⟨hpulse1, hpulse2, htri, hnoise, hdmc.writeControl d, hfs⟩
  case h_16 => exact ⟨hpulse1, hpulse2, htri, hnoise, hdmc.writeLevel d, hfs⟩
  case h_17 => exact ⟨hpulse1, hpulse2, htri, hnoise, hdmc.writeAddr d, hfs⟩
  case h_18 => exact ⟨hpulse1, hpulse2, htri, hnoise, hdmc.writeLen d, hfs⟩
  all_goals exact ⟨hpulse1, hpulse2, htri, hnoise, hdmc, hfs⟩

/-! ### The controller ports -/

theorem Pads.RangeOk.writeStrobe (p : Pads) (inp : Inputs) (v : Byte) : (p.writeStrobe inp v).RangeOk := by
  unfold Pads.writeStrobe
  split
  · exact fun _ => ⟨rfl, rfl⟩
  · exact nofun

theorem Pads.RangeOk.read1 {p : Pads} (h : p.RangeOk) (inp : Inputs) : (p.read1 inp).2.RangeOk := by
  unfold Pads.read1
  split
  · next hheld => exact fun _ => ⟨rfl, (h hheld).2⟩
  · next hfree => exact fun hheld => absurd hheld hfree

theorem Pads.RangeOk.read2 {p : Pads} (h : p.RangeOk) (inp : Inputs) : (p.read2 inp).2.RangeOk := by
  unfold Pads.read2
  split
  · next hheld => exact fun _ => ⟨(h hheld).1, rfl⟩
  · next hfree => exact fun hheld => absurd hheld hfree

/-! ### The machine -/

/-- A read reaches, of what has a range, only the ports' indexes. -/
theorem State.DevicesOk.readRegion {s : State} (h : s.DevicesOk) (a : Word) : (Machine.readRegion a s).2.DevicesOk := by
  obtain ⟨hppu, hapu, hpads⟩ := h
  unfold Machine.readRegion
  split
  case h_2 => exact ⟨hppu.readReg _ _, hapu, hpads⟩
  case h_5 =>
    have hunits := (Apu.rangeOk_iff_unitsOk s.apu).mp hapu
    exact ⟨hppu, (Apu.rangeOk_iff_unitsOk _).mpr (hunits.setFrameIrq false), hpads⟩
  case h_6 => exact ⟨hppu, hapu, hpads.read1 _⟩
  case h_7 => exact ⟨hppu, hapu, hpads.read2 _⟩
  all_goals exact ⟨hppu, hapu, hpads⟩

theorem Written.devicesOk {a : Word} {v : Byte} {s t : State} (h : Written a v s t) (hs : s.DevicesOk) : t.DevicesOk := by
  obtain ⟨hppu, hapu, hpads⟩ := hs
  have hunits := (Apu.rangeOk_iff_unitsOk s.apu).mp hapu
  cases h with
  | ppuReg h => exact ⟨hppu.writeReg _ _ _, hapu, hpads⟩
  | apuReg h => exact ⟨hppu, (Apu.rangeOk_iff_unitsOk _).mpr (by dsimp only; exact hunits.writeReg _ _), hpads⟩
  | enable h => exact ⟨hppu, (Apu.rangeOk_iff_unitsOk _).mpr (hunits.writeEnable _), hpads⟩
  | strobe h => exact ⟨hppu, hapu, Pads.RangeOk.writeStrobe _ _ _⟩
  | frameCounter h => exact ⟨hppu, (Apu.rangeOk_iff_unitsOk _).mpr (hunits.writeFrameCounter _), hpads⟩
  | _ => exact ⟨hppu, hapu, hpads⟩

/-- An update of the sound unit that keeps its units in range keeps the devices in range. -/
theorem State.DevicesOk.setApu {s : State} (h : s.DevicesOk) {a : Apu} (ha : s.apu.UnitsOk → a.UnitsOk) :
    ({ s with apu := a } : State).DevicesOk :=
  ⟨h.ppu, (Apu.rangeOk_iff_unitsOk a).mpr (ha ((Apu.rangeOk_iff_unitsOk s.apu).mp h.apu)), h.pads⟩

/-- Every update a step is made of keeps the devices in range. -/
theorem State.stepStable_devicesOk : StepStable State.DevicesOk where
  regs _ _ h := ⟨h.ppu, h.apu, h.pads⟩
  count _ _ _ h := ⟨h.ppu, h.apu, h.pads⟩
  read _ a h := h.readRegion a
  write s a v h := (writeRegion_written a v s).devicesOk h
  conclude _ _ _ _ _ h := ⟨h.ppu, h.apu, h.pads⟩
  ctl _ _ h := ⟨h.ppu, h.apu, h.pads⟩
  tick s h := ⟨h.ppu.tick s.cart, h.apu, h.pads⟩
  units _ h := h.setApu fun hunits => hunits.tickUnits
  take _ b hwants h := h.setApu fun hunits => hunits.takeByte hwants b
  finish _ h := h.setApu fun hunits =>
    ⟨hunits.pulse1, hunits.pulse2, hunits.triangle, hunits.noise, hunits.dmc, hunits.fs⟩

/-- After a step the fault register is clear, or holds the illegal opcode just fetched at PC. -/
theorem State.faultOk_of_step {s t : State} (h : step s = .next t) : t.FaultOk := by
  obtain ⟨-, ⟨u, result, ⟨hclear, -⟩, -, rfl⟩ | ⟨f, u, hfetch, rfl⟩⟩ := step_cases h
  · obtain ⟨-, -, -, -, hctl, -⟩ := finishStep_frame result u
    exact State.faultOk_of_none (by rw [hctl]; exact hclear)
  · obtain ⟨hf, hform, rfl⟩ := fetchInstr_eq_illegal hfetch
    intro g hg
    obtain rfl : f = g := Option.some.inj hg
    exact ⟨hform, by rw [State.raise_regs, busRead_regs, hf]⟩

end Sys2Proof.Machine

namespace Sys2Proof

open Sys2Proof.Machine

/-- Settles O56: being in range is a property every update of a step keeps; the fault register is set by the raising step alone. -/
theorem stepKeepsDevicesInRange : Obligations.StepKeepsDevicesInRange :=
  fun _ _ hdevices _ hstep => ⟨State.stepStable_devicesOk.step hdevices hstep, State.faultOk_of_step hstep⟩

end Sys2Proof
end

section
/-! Bit fields: which bits an assignment of a field changes, and what the other fields read after it (00_scope.md R10); appended
fields as numbers. -/

namespace Sys2Proof.Machine

/-- Inside the field the bits are the new ones, outside they are the old ones. -/
theorem putField_getLsbD {n k : Nat} (v : BitVec n) (lo : Nat) (f : BitVec k) {i : Nat} (hi : i < n) :
    (putField v lo f).getLsbD i = if lo ≤ i ∧ i < lo + k then f.getLsbD (i - lo) else v.getLsbD i := by
  have hmask : ((BitVec.allOnes k).setWidth n <<< lo).getLsbD i = decide (lo ≤ i ∧ i < lo + k) := by
    simp only [BitVec.getLsbD_shiftLeft, BitVec.getLsbD_setWidth, BitVec.getLsbD_allOnes]
    grind
  have hfield : (f.setWidth n <<< lo).getLsbD i = (decide (lo ≤ i ∧ i < lo + k) && f.getLsbD (i - lo)) := by
    have hpast : ¬ i - lo < k → f.getLsbD (i - lo) = false := fun h => BitVec.getLsbD_of_ge f _ (Nat.le_of_not_lt h)
    simp only [BitVec.getLsbD_shiftLeft, BitVec.getLsbD_setWidth]
    grind
  rw [putField, BitVec.getLsbD_or, BitVec.getLsbD_and, BitVec.getLsbD_not, hmask, hfield]
  by_cases hin : lo ≤ i ∧ i < lo + k
  · simp only [hin, hi, and_self, decide_true, Bool.not_true, Bool.and_false, Bool.false_or, Bool.true_and, if_true]
  · simp only [hin, hi, decide_true, decide_false, Bool.not_false, Bool.and_true, Bool.false_and, Bool.or_false, if_false]

/-- The field assigned reads as the value given. -/
theorem extractLsb'_putField_same {n k : Nat} (v : BitVec n) (lo : Nat) (f : BitVec k) (h : lo + k ≤ n) :
    (putField v lo f).extractLsb' lo k = f := by
  refine BitVec.eq_of_getLsbD_eq fun i hi => ?_
  rw [BitVec.getLsbD_extractLsb', putField_getLsbD v lo f (by omega), if_pos (by omega), Nat.add_sub_cancel_left]
  simp [hi]

/-- A field apart from the one assigned keeps its value. -/
theorem extractLsb'_putField_disjoint {n k : Nat} (v : BitVec n) (lo : Nat) (f : BitVec k) {start len : Nat}
    (hin : start + len ≤ n) (h : start + len ≤ lo ∨ lo + k ≤ start) :
    (putField v lo f).extractLsb' start len = v.extractLsb' start len := by
  refine BitVec.eq_of_getLsbD_eq fun i hi => ?_
  rw [BitVec.getLsbD_extractLsb', BitVec.getLsbD_extractLsb', putField_getLsbD v lo f (by omega), if_neg (by omega)]

/-- A field assigned before another one, apart from it, reads as the value given. -/
theorem extractLsb'_putField_first {n k l : Nat} (v : BitVec n) (lo : Nat) (f : BitVec k) (lo' : Nat) (g : BitVec l)
    (hin : lo + k ≤ n) (h : lo + k ≤ lo' ∨ lo' + l ≤ lo) :
    (putField (putField v lo f) lo' g).extractLsb' lo k = f := by
  rw [extractLsb'_putField_disjoint _ _ _ hin h, extractLsb'_putField_same _ _ _ hin]

/-- A field apart from two assigned ones keeps its value. -/
theorem extractLsb'_putField_apart {n k l : Nat} (v : BitVec n) (lo : Nat) (f : BitVec k) (lo' : Nat) (g : BitVec l)
    {start len : Nat} (hin : start + len ≤ n) (h : start + len ≤ lo ∨ lo + k ≤ start)
    (h' : start + len ≤ lo' ∨ lo' + l ≤ start) :
    (putField (putField v lo f) lo' g).extractLsb' start len = v.extractLsb' start len := by
  rw [extractLsb'_putField_disjoint _ _ _ hin h', extractLsb'_putField_disjoint _ _ _ hin h]

/-- Appended fields as a number: the high one times the size of the low one, and the low one. -/
theorem toNat_append_add {m n : Nat} (x : BitVec m) (y : BitVec n) : (x ++ y).toNat = x.toNat * 2 ^ n + y.toNat := by
  rw [BitVec.toNat_append, ← Nat.shiftLeft_add_eq_or_of_lt y.isLt, Nat.shiftLeft_eq]

theorem field_toNat {n : Nat} (v : BitVec n) (lo len : Nat) : (field v lo len).toNat = v.toNat / 2 ^ lo % 2 ^ len := by
  rw [field, BitVec.extractLsb'_toNat, Nat.shiftRight_eq_div_pow]

end Sys2Proof.Machine
end

section
/-! The PPU's registers by the bus: PPUSCROLL, PPUADDR and PPUSTATUS (61_ppu.md R812, R815, R816, R819). -/

namespace Sys2Proof.Machine

/-! ### A bus access of the PPU's window is an access of its register -/

theorem busWrite_ppuReg {a : Word} (d : Byte) (s : State) (h : 0x2000 ≤ a.toNat ∧ a.toNat < 0x4000) :
    (busWrite a d s).ppu = (s.ppu.writeReg s.cart (a.toNat % 8) d).2 ∧
      (busWrite a d s).cart = (s.ppu.writeReg s.cart (a.toNat % 8) d).1 := by
  have hne : a.toNat ≠ (0x4014 : Word).toNat := by
    rw [show (0x4014 : Word).toNat = 0x4014 from rfl]; omega
  obtain ⟨hppu, hcart, -, -⟩ := (writeRegion_written a d s).ppuReg_eq h
  rw [busWrite_ne d s (ne_of_toNat_ne hne)]
  exact ⟨hppu, hcart⟩

theorem busRead_ppuReg {a : Word} (s : State) (h : 0x2000 ≤ a.toNat ∧ a.toNat < 0x4000) :
    (busRead a s).1 = (s.ppu.readReg s.cart (a.toNat % 8)).1 ∧
      (busRead a s).2.ppu = (s.ppu.readReg s.cart (a.toNat % 8)).2 := by
  rw [busRead_fst, busRead_snd, State.peek, readRegion_ppu h]
  exact ⟨rfl, rfl⟩

/-! ### PPUSCROLL and PPUADDR -/

theorem Ppu.writeScroll_first {p : Ppu} (h : p.w = false) (d : Byte) :
    p.writeScroll d = { p with t := putField p.t 0 (field d 3 5), fineX := field d 0 3, w := true } :=
  if_neg (by rw [h]; decide)

theorem Ppu.writeScroll_second {p : Ppu} (h : p.w = true) (d : Byte) :
    p.writeScroll d = { p with t := putField (putField p.t 12 (field d 0 3)) 5 (field d 3 5), w := false } := if_pos h

theorem Ppu.writeAddr_first {p : Ppu} (h : p.w = false) (d : Byte) :
    p.writeAddr d = { p with t := putField (putField p.t 8 (field d 0 6)) 14 (0 : BitVec 1), w := true } :=
  if_neg (by rw [h]; decide)

theorem Ppu.writeAddr_second {p : Ppu} (h : p.w = true) (d : Byte) :
    p.writeAddr d = { p with t := p.addrLow d, v := p.addrLow d, w := false } := if_pos h

/-! ### PPUSTATUS -/

theorem Ppu.status_toNat (p : Ppu) :
    p.status.toNat =
      128 * boolNat p.vblank + 64 * boolNat p.sprite0Hit + 32 * boolNat p.spriteOverflow + p.ioLatch.toNat % 32 := by
  show BitVec.toNat (w := 1 + 1 + 1 + 5)
    (BitVec.ofBool p.vblank ++ BitVec.ofBool p.sprite0Hit ++ BitVec.ofBool p.spriteOverflow ++ field p.ioLatch 0 5) = _
  simp only [toNat_append_add, BitVec.toNat_ofBool, field_toNat, boolNat_eq_toNat, pow_zero, Nat.div_one]
  omega

theorem Ppu.readReg_status (c : Cart) (p : Ppu) :
    p.readReg c 2 = (p.status, { p with vblank := false, w := false, ioLatch := p.status }) := rfl

theorem Ppu.writeReg_status (c : Cart) (p : Ppu) (d : Byte) : p.writeReg c 2 d = (c, { p with ioLatch := d }) := rfl

end Sys2Proof.Machine

namespace Sys2Proof

open Sys2Proof.Machine

/-- Settles O39: each write assigns fields of `t`, and a field reads as assigned or, apart from the assigned ones, as before. -/
theorem scrollAndAddressWrites : Obligations.ScrollAndAddressWrites := by
  intro s d p scroll addr
  obtain ⟨hscroll, -⟩ := busWrite_ppuReg (a := 0x2005) d s (by decide)
  obtain ⟨haddr, -⟩ := busWrite_ppuReg (a := 0x2006) d s (by decide)
  have hs : scroll = Ppu.writeScroll { p with ioLatch := d } d := hscroll
  have ha : addr = Ppu.writeAddr { p with ioLatch := d } d := haddr
  refine ⟨fun hw => ?_, fun hw => ?_, (busRead_ppuReg s (by decide)).1, (busRead_ppuReg s (by decide)).1⟩
  · rw [hs, ha, Ppu.writeScroll_first (p := { p with ioLatch := d }) hw, Ppu.writeAddr_first (p := { p with ioLatch := d }) hw]
    exact ⟨⟨extractLsb'_putField_same _ _ _ (by decide), extractLsb'_putField_disjoint _ _ _ (by decide) (by decide), rfl, rfl,
        rfl⟩,
      extractLsb'_putField_first _ _ _ _ _ (by decide) (by decide), extractLsb'_putField_same _ _ _ (by decide),
      extractLsb'_putField_apart _ _ _ _ _ (by decide) (by decide) (by decide), rfl, rfl, rfl⟩
  · rw [hs, ha, Ppu.writeScroll_second (p := { p with ioLatch := d }) hw,
      Ppu.writeAddr_second (p := { p with ioLatch := d }) hw]
    exact ⟨⟨extractLsb'_putField_first _ _ _ _ _ (by decide) (by decide), extractLsb'_putField_same _ _ _ (by decide),
        extractLsb'_putField_apart _ _ _ _ _ (by decide) (by decide) (by decide),
        extractLsb'_putField_apart _ _ _ _ _ (by decide) (by decide) (by decide), rfl, rfl, rfl⟩,
      extractLsb'_putField_same _ _ _ (by decide), extractLsb'_putField_disjoint _ _ _ (by decide) (by decide), rfl, rfl, rfl⟩

/-- Settles O40: every mirror of $2002 is an access of register 2. -/
theorem statusReadClearsVblankAndToggle : Obligations.StatusReadClearsVblankAndToggle := by
  intro s a d hlow hhigh hreg
  obtain ⟨hbyte, hread⟩ := busRead_ppuReg s ⟨hlow, hhigh⟩
  obtain ⟨hwrite, hcart⟩ := busWrite_ppuReg d s ⟨hlow, hhigh⟩
  rw [hreg, Ppu.readReg_status] at hbyte hread
  rw [hreg, Ppu.writeReg_status] at hwrite hcart
  exact ⟨by rw [hbyte]; exact Ppu.status_toNat s.ppu, by rw [hread, hbyte], hwrite, hcart⟩

end Sys2Proof
end

section
/-! The scroll increments and copies (61_ppu.md R851 to R854), field by field. -/

namespace Sys2Proof.Machine

/-! ### Fields and single bits of `v` as numbers -/

theorem toNat_coarseX (v : BitVec 15) : v.toNat % 32 = (field v 0 5).toNat := by simp [field_toNat]

theorem toNat_coarseY (v : BitVec 15) : v.toNat / 32 % 32 = (field v 5 5).toNat := by simp [field_toNat]

theorem toNat_fineY (v : BitVec 15) : v.toNat / 4096 = (field v 12 3).toNat := by
  have := v.isLt
  simp [field_toNat]
  omega

/-! ### Coarse X -/

theorem incCoarseX_wrap {v : BitVec 15} (h : v.toNat % 32 = 31) : incCoarseX v = putField v 0 (0 : BitVec 5) ^^^ 0x0400 :=
  if_pos (BitVec.eq_of_toNat_eq (by rw [← toNat_coarseX, h]; rfl))

theorem incCoarseX_step {v : BitVec 15} (h : v.toNat % 32 ≠ 31) : incCoarseX v = v + 1 :=
  if_neg fun e => h (by rw [toNat_coarseX, e]; rfl)

/-- The carry out of coarse X is bit 10, the horizontal nametable bit. -/
theorem coarseXCarry_getLsbD : ∀ i, i < 15 → (0x0400 : BitVec 15).getLsbD i = decide (i = 10) := by decide

/-! ### Y -/

/-- `v` with fine Y 0 and coarse Y `c`. -/
def withY (v : BitVec 15) (c : BitVec 5) : BitVec 15 := putField (putField v 12 (0 : BitVec 3)) 5 c

theorem incY_step {v : BitVec 15} (h : v.toNat / 4096 < 7) : incY v = v + 0x1000 :=
  if_pos (by rw [← toNat_fineY]; exact h)

theorem incY_wrap {v : BitVec 15} (h : v.toNat / 4096 = 7) :
    incY v =
      if field v 5 5 = 29 then withY v 0 ^^^ 0x0800 else if field v 5 5 = 31 then withY v 0 else withY v (field v 5 5 + 1) :=
  if_neg (by rw [← toNat_fineY, h]; decide)

theorem withY_getLsbD (v : BitVec 15) (c : BitVec 5) {i : Nat} (hi : i < 5 ∨ i = 10 ∨ i = 11) :
    (withY v c).getLsbD i = v.getLsbD i := by
  rw [withY, putField_getLsbD _ _ _ (by omega), if_neg (by omega), putField_getLsbD _ _ _ (by omega), if_neg (by omega)]

theorem withY_fields (v : BitVec 15) (c : BitVec 5) :
    field (withY v c) 12 3 = 0 ∧ field (withY v c) 5 5 = c ∧ field (withY v c) 0 5 = field v 0 5 :=
  ⟨extractLsb'_putField_first _ _ _ _ _ (by decide) (by decide), extractLsb'_putField_same _ _ _ (by decide),
    extractLsb'_putField_apart _ _ _ _ _ (by decide) (by decide) (by decide)⟩

/-- What an increment past fine Y 7 leaves: fine Y 0, the horizontal bits, coarse Y `c`, and the vertical nametable bit, flipped
if `flip` says so. -/
structure YWrapped (v r : BitVec 15) (c : Nat) (flip : Bool) : Prop where
  fine : r.toNat / 4096 = 0
  coarseX : r.toNat % 32 = v.toNat % 32
  horizontal : r.getLsbD 10 = v.getLsbD 10
  coarseY : r.toNat / 32 % 32 = c
  vertical : r.getLsbD 11 = (v.getLsbD 11 ^^ flip)

theorem YWrapped.withY (v : BitVec 15) (c : BitVec 5) : YWrapped v (Machine.withY v c) c.toNat false := by
  obtain ⟨hfine, hcoarse, hx⟩ := withY_fields v c
  exact ⟨by rw [toNat_fineY, hfine]; rfl, by rw [toNat_coarseX, hx, toNat_coarseX], withY_getLsbD v c (by decide),
    by rw [toNat_coarseY, hcoarse], by rw [withY_getLsbD v c (by decide), Bool.xor_false]⟩

/-- Flipping bit 11 flips the vertical nametable bit and nothing else. -/
theorem YWrapped.flip {v r : BitVec 15} {c : Nat} (h : YWrapped v r c false) : YWrapped v (r ^^^ 0x0800) c true := by
  have hfield (lo len : Nat) (hz : (0x0800 : BitVec 15).extractLsb' lo len = 0) :
      field (r ^^^ 0x0800) lo len = field r lo len := by
    rw [field, BitVec.extractLsb'_xor, hz, field]
    exact BitVec.xor_zero
  obtain ⟨hfine, hx, hh, hy, hv⟩ := h
  refine ⟨?_, ?_, ?_, ?_, ?_⟩
  · rw [toNat_fineY, hfield 12 3 (by decide), ← toNat_fineY, hfine]
  · rw [toNat_coarseX, hfield 0 5 (by decide), ← toNat_coarseX, hx]
  · rw [BitVec.getLsbD_xor, hh]
    exact Bool.xor_false _
  · rw [toNat_coarseY, hfield 5 5 (by decide), ← toNat_coarseY, hy]
  · rw [BitVec.getLsbD_xor, hv, Bool.xor_false]
    rfl

/-- The three cases of coarse Y at a wrap of fine Y (R852). -/
theorem incY_wrapped {v : BitVec 15} (h : v.toNat / 4096 = 7) :
    YWrapped v (incY v)
      (if v.toNat / 32 % 32 = 29 ∨ v.toNat / 32 % 32 = 31 then 0 else v.toNat / 32 % 32 + 1)
      (decide (v.toNat / 32 % 32 = 29)) := by
  rw [incY_wrap h, toNat_coarseY]
  generalize field v 5 5 = y
  split
  · next h29 => subst h29; exact (YWrapped.withY v 0).flip
  · next h29 =>
    split
    · next h31 => subst h31; exact YWrapped.withY v 0
    · next h31 =>
      have hne29 : y.toNat ≠ 29 := fun e => h29 (BitVec.eq_of_toNat_eq e)
      have hne31 : y.toNat ≠ 31 := fun e => h31 (BitVec.eq_of_toNat_eq e)
      have hsucc : (y + 1).toNat = y.toNat + 1 := by bv_omega
      rw [if_neg (by omega), decide_eq_false hne29, ← hsucc]
      exact YWrapped.withY v (y + 1)

/-! ### The copies -/

/-- Bits under a mask come from `t`, the others from `v`. -/
theorem getLsbD_merge (v t m : BitVec 15) {i : Nat} (hi : i < 15) :
    ((v &&& ~~~m) ||| (t &&& m)).getLsbD i = if m.getLsbD i then t.getLsbD i else v.getLsbD i := by
  rw [BitVec.getLsbD_or, BitVec.getLsbD_and, BitVec.getLsbD_and, BitVec.getLsbD_not, decide_eq_true hi]
  cases m.getLsbD i <;> simp

theorem horizontalMask_getLsbD : ∀ i, i < 15 → (0x041F : BitVec 15).getLsbD i = decide (i < 5 ∨ i = 10) := by decide

theorem verticalMask_getLsbD : ∀ i, i < 15 → (0x7BE0 : BitVec 15).getLsbD i = decide (5 ≤ i ∧ i ≠ 10) := by decide

end Sys2Proof.Machine

namespace Sys2Proof

open Sys2Proof.Machine

/-- Settles O43: each increment either carries nowhere, and is an addition, or clears its field and says which bits follow. -/
theorem scrollIncrementsAndCopies : Obligations.ScrollIncrementsAndCopies := by
  intro v t
  have hlt := v.isLt
  refine ⟨fun h => ⟨?_, fun i hi => ?_⟩, fun h => ?_, fun h => ?_, fun h => ?_, fun i hi => ?_, fun i hi => ?_⟩
  · rw [incCoarseX_wrap h, toNat_coarseX, field, BitVec.extractLsb'_xor, extractLsb'_putField_same _ _ _ (by decide)]
    rfl
  · rw [incCoarseX_wrap h, BitVec.getLsbD_xor]
    rcases Nat.lt_or_ge i 15 with hlt15 | hge
    · rw [putField_getLsbD _ _ _ hlt15, if_neg (by omega), coarseXCarry_getLsbD i hlt15]
      by_cases h10 : i = 10 <;> simp [h10]
    · rw [if_neg (by omega), BitVec.getLsbD_of_ge _ _ hge, BitVec.getLsbD_of_ge _ _ hge, BitVec.getLsbD_of_ge _ _ hge]
      rfl
  · rw [incCoarseX_step h]
    bv_omega
  · rw [incY_step h]
    bv_omega
  · obtain ⟨hfine, hx, hhor, hy, hver⟩ := incY_wrapped h
    refine ⟨hfine, hx, hhor, fun h29 => ?_, fun h31 => ?_, fun h29 h31 => ?_⟩
    · rw [hy, hver, h29]
      exact ⟨rfl, Bool.xor_true _⟩
    · rw [hy, hver, h31]
      exact ⟨rfl, Bool.xor_false _⟩
    · rw [hy, hver, if_neg (by omega), decide_eq_false h29]
      exact ⟨rfl, Bool.xor_false _⟩
  · rw [copyHorizontal, getLsbD_merge v t _ hi, horizontalMask_getLsbD i hi]
    simp only [decide_eq_true_eq]
  · rw [copyVertical, getLsbD_merge v t _ hi, verticalMask_getLsbD i hi]
    simp only [decide_eq_true_eq]

end Sys2Proof
end

section
/-! PPUDATA (61_ppu.md R817; 20_memory.md R241, R242): the PPU's address space after a write, and the port's reads and writes. -/

namespace Sys2Proof.Machine

/-! ### The three windows of the PPU's address space -/

theorem ppuRead_vram {c : Cart} {p : Ppu} {a : BitVec 14} (h : 0x2000 ≤ a.toNat) (h' : a.toNat < 0x3F00) :
    ppuRead c p a = Store.read p.vram (vramIndex c.mirroring a.toNat) :=
  (if_neg (Nat.not_lt.mpr h)).trans (if_pos h')

theorem ppuRead_palette {c : Cart} {p : Ppu} {a : BitVec 14} (h : 0x3F00 ≤ a.toNat) :
    ppuRead c p a = (Store.read p.palette (paletteIndex a.toNat)).setWidth 8 :=
  (if_neg (by omega)).trans (if_neg (by omega))

theorem ppuWrite_chr {c : Cart} {p : Ppu} {a : BitVec 14} (v : Byte) (h : a.toNat < 0x2000) :
    ppuWrite c p a v = (c.writeChr a.toNat v, p) := if_pos h

theorem ppuWrite_vram {c : Cart} {p : Ppu} {a : BitVec 14} (v : Byte) (h : 0x2000 ≤ a.toNat) (h' : a.toNat < 0x3F00) :
    ppuWrite c p a v = (c, { p with vram := Store.write p.vram (vramIndex c.mirroring a.toNat) v }) :=
  (if_neg (Nat.not_lt.mpr h)).trans (if_pos h')

theorem ppuWrite_palette {c : Cart} {p : Ppu} {a : BitVec 14} (v : Byte) (h : 0x3F00 ≤ a.toNat) :
    ppuWrite c p a v = (c, { p with palette := Store.write p.palette (paletteIndex a.toNat) (v.setWidth 6) }) :=
  (if_neg (by omega)).trans (if_neg (by omega))

/-! ### Reading after writing -/

theorem Cart.writeChr_ram {c : Cart} (h : c.chrBanks = 0) (a : Nat) (v : Byte) :
    c.writeChr a v = { c with chr := Store.write c.chr (c.mapPpu a) v } := if_pos (by simp [Cart.chrIsRam, h])

theorem Cart.writeChr_rom {c : Cart} (h : c.chrBanks ≠ 0) (a : Nat) (v : Byte) : c.writeChr a v = c :=
  if_neg (by simp [Cart.chrIsRam, h])

/-- CHR after a write into it: RAM takes the byte at the translated address, ROM stays (R241). -/
theorem Cart.read_writeChr {c : Cart} (hc : c.Ok) (a b : Nat) (v : Byte) :
    Store.read (c.writeChr a v).chr ((c.writeChr a v).mapPpu b) =
      if c.chrBanks = 0 ∧ c.mapPpu b = c.mapPpu a then v else Store.read c.chr (c.mapPpu b) := by
  by_cases hram : c.chrBanks = 0
  · have hmap : (c.writeChr a v).mapPpu b = c.mapPpu b := by rw [Cart.writeChr_ram hram]; rfl
    rw [hmap, Cart.writeChr_ram hram, Store.read_write hc.chr.1]
    simp only [hram, true_and]
  · rw [Cart.writeChr_rom hram, if_neg fun h => hram h.1]

/-- The byte written reads back: from CHR if it is RAM, of a palette entry its six bits. -/
theorem ppuRead_ppuWrite_self {c : Cart} {p : Ppu} (hc : c.Ok) (hp : p.MemOk) (a : BitVec 14) (v : Byte) :
    ppuRead (ppuWrite c p a v).1 (ppuWrite c p a v).2 a =
      if a.toNat < 0x2000 then (if c.chrBanks = 0 then v else ppuRead c p a)
      else if a.toNat < 0x3F00 then v else (v.setWidth 6).setWidth 8 := by
  split
  · next hchr =>
    rw [ppuWrite_chr v hchr, ppuRead_chr _ _ hchr, ppuRead_chr _ _ hchr, Cart.read_writeChr hc]
    simp only [and_true]
  · next hchr =>
    split
    · next hvram =>
      rw [ppuWrite_vram v (by omega) hvram, ppuRead_vram (by omega) hvram]
      exact Store.read_write_self hp.vram.1 _ v
    · next hvram =>
      rw [ppuWrite_palette v (by omega), ppuRead_palette (by omega)]
      exact congrArg (BitVec.setWidth 8) (Store.read_write_self hp.palette.1 _ _)

/-- Every byte that is not the written one, nor a mirror of it, is as before. -/
theorem ppuRead_ppuWrite_other {c : Cart} {p : Ppu} (hc : c.Ok) (hp : p.MemOk) {a b : BitVec 14} (v : Byte)
    (h : ¬ SamePpuCell c a.toNat b.toNat) :
    ppuRead (ppuWrite c p a v).1 (ppuWrite c p a v).2 b = ppuRead c p b := by
  simp only [SamePpuCell, not_or, not_and] at h
  obtain ⟨hchr, hvram, hpal⟩ := h
  rcases Nat.lt_or_ge a.toNat 0x2000 with ha | ha
  · rw [ppuWrite_chr v ha]
    rcases Nat.lt_or_ge b.toNat 0x2000 with hb | hb
    · rw [ppuRead_chr _ _ hb, ppuRead_chr _ _ hb, Cart.read_writeChr hc, if_neg fun e => hchr ha hb e.2.symm]
    · have hmirror : (c.writeChr a.toNat v).mirroring = c.mirroring := by unfold Cart.writeChr; split <;> rfl
      simp only [ppuRead, Nat.not_lt.mpr hb, if_false, hmirror]
  · rcases Nat.lt_or_ge a.toNat 0x3F00 with ha' | ha'
    · rw [ppuWrite_vram v ha ha']
      by_cases hb : 0x2000 ≤ b.toNat ∧ b.toNat < 0x3F00
      · rw [ppuRead_vram hb.1 hb.2, ppuRead_vram hb.1 hb.2]
        exact Store.read_write_ne hp.vram.1 v fun e => hvram ⟨ha, ha'⟩ hb e.symm
      · rcases Nat.lt_or_ge b.toNat 0x2000 with hb' | hb'
        · rw [ppuRead_chr _ _ hb', ppuRead_chr _ _ hb']
        · rw [ppuRead_palette (by omega), ppuRead_palette (by omega)]
    · rw [ppuWrite_palette v ha']
      rcases Nat.lt_or_ge b.toNat 0x3F00 with hb | hb
      · simp only [ppuRead, hb, if_true]
      · rw [ppuRead_palette hb, ppuRead_palette hb]
        exact congrArg (BitVec.setWidth 8) (Store.read_write_ne hp.palette.1 _ fun e => hpal ha' hb e.symm)

/-- Of the PPU a write reaches VRAM and the palette alone, below $2000 neither. -/
theorem ppuWrite_frame (c : Cart) (p : Ppu) (a : BitVec 14) (v : Byte) :
    (ppuWrite c p a v).2 = { p with vram := (ppuWrite c p a v).2.vram, palette := (ppuWrite c p a v).2.palette } := by
  unfold ppuWrite
  dsimp only
  split
  · rfl
  · split <;> rfl

/-! ### The port -/

theorem Ppu.dataAddr_toNat (p : Ppu) : p.dataAddr.toNat = p.v.toNat % 0x4000 := BitVec.toNat_setWidth ..

theorem Ppu.bumpV_v_toNat (p : Ppu) : p.bumpV.v.toNat = (p.v.toNat + (if bitAt p.ctrl 2 then 32 else 1)) % 0x8000 := by
  rw [Ppu.bumpV, BitVec.toNat_add]
  split <;> rfl

theorem Ppu.readReg_data (c : Cart) (p : Ppu) :
    p.readReg c 7 = ((p.readData c).1, { (p.readData c).2 with ioLatch := (p.readData c).1 }) := rfl

theorem Ppu.readData_buffered (c : Cart) {p : Ppu} (h : p.dataAddr.toNat < 0x3F00) :
    p.readData c = (p.readBuffer, { p with readBuffer := ppuRead c p p.dataAddr }.bumpV) := if_pos h

theorem Ppu.readData_palette (c : Cart) {p : Ppu} (h : 0x3F00 ≤ p.dataAddr.toNat) :
    p.readData c = (p.paletteByte c, { p with readBuffer := ppuRead c p (p.dataAddr - 0x1000) }.bumpV) :=
  if_neg (Nat.not_lt.mpr h)

/-- Whatever the address, a read moves `v` on, loads the buffer and leaves the rest of the PPU. -/
theorem Ppu.readData_frame (c : Cart) (p : Ppu) :
    (p.readData c).2 = { p with v := p.bumpV.v, readBuffer := (p.readData c).2.readBuffer } := by
  unfold Ppu.readData
  split <;> rfl

/-- The palette entry as a six-bit number, greyscale applied, below two bits of `io_latch` (R817). -/
theorem Ppu.paletteByte_toNat (c : Cart) {p : Ppu} (h : 0x3F00 ≤ p.dataAddr.toNat) :
    (p.paletteByte c).toNat =
      p.ioLatch.toNat / 64 * 64 +
        ((Store.read p.palette (paletteIndex p.dataAddr.toNat)).toNat &&& (if bitAt p.mask 0 then 0x30 else 0x3F)) := by
  have hentry : ((ppuRead c p p.dataAddr).setWidth 6) = Store.read p.palette (paletteIndex p.dataAddr.toNat) := by
    rw [ppuRead_palette h]
    exact BitVec.setWidth_setWidth_of_le _ (by decide)
  unfold Ppu.paletteByte
  dsimp only
  rw [hentry]
  generalize Store.read p.palette (paletteIndex p.dataAddr.toNat) = e
  have hhigh : (field p.ioLatch 6 2).toNat = p.ioLatch.toNat / 64 := by
    have := p.ioLatch.isLt
    rw [field_toNat]
    omega
  show BitVec.toNat (w := 2 + 6) (field p.ioLatch 6 2 ++ (if bitAt p.mask 0 then e &&& 0x30 else e)) = _
  rw [toNat_append_add, hhigh]
  split
  · rfl
  · exact congrArg (p.ioLatch.toNat / 64 * 64 + ·) (Nat.and_two_pow_sub_one_of_lt_two_pow e.isLt).symm

theorem Ppu.writeReg_data (c : Cart) (p : Ppu) (d : Byte) :
    p.writeReg c 7 d =
      ((ppuWrite c { p with ioLatch := d } p.dataAddr d).1, (ppuWrite c { p with ioLatch := d } p.dataAddr d).2.bumpV) := rfl

end Sys2Proof.Machine

namespace Sys2Proof

open Sys2Proof.Machine

/-- Settles O41: the port's address is `v` modulo $4000; its reads by the two windows of R817, its writes by `ppuWrite`. -/
theorem dataPortReadsAndWrites : Obligations.DataPortReadsAndWrites := by
  intro c p d hc hp a next r q
  have hp' : Ppu.MemOk { p with ioLatch := d } := hp.congr rfl rfl rfl rfl
  have ha : p.dataAddr.toNat = a := p.dataAddr_toNat
  have haddr : BitVec.ofNat 14 p.dataAddr.toNat = p.dataAddr := by simp
  have hpalette (h : 0x3F00 ≤ p.dataAddr.toNat) : (p.dataAddr - 0x1000).toNat = p.dataAddr.toNat - 0x1000 := by bv_omega
  have hself : ppuRead q.1 q.2 p.dataAddr = _ := ppuRead_ppuWrite_self hc hp' p.dataAddr d
  have hframe := ppuWrite_frame c { p with ioLatch := d } p.dataAddr d
  have hq : q = ((ppuWrite c { p with ioLatch := d } p.dataAddr d).1,
      (ppuWrite c { p with ioLatch := d } p.dataAddr d).2.bumpV) := Ppu.writeReg_data c p d
  have hr : r = ((p.readData c).1, { (p.readData c).2 with ioLatch := (p.readData c).1 }) := Ppu.readReg_data c p
  rw [← ha, haddr]
  refine ⟨?_, ?_, fun h => ?_, fun h => ⟨?_, ?_⟩, fun h => ?_, fun h => ?_, fun h => ?_,
    fun b hb => ppuRead_ppuWrite_other hc hp' d hb, ?_, ?_, ?_, fun h => ?_, fun h => ?_⟩
  · rw [hr, Ppu.readData_frame]
    exact p.bumpV_v_toNat
  · rw [hq, Ppu.bumpV_v_toNat, hframe]
  · rw [hr, Ppu.readData_buffered c h]
    exact ⟨rfl, rfl⟩
  · rw [hr, Ppu.readData_palette c h]
    exact Ppu.paletteByte_toNat c h
  · rw [hr, Ppu.readData_palette c h, ← hpalette h]
    exact ppuRead_vram (by rw [hpalette h]; omega) (by rw [hpalette h]; omega)
  · rw [hself, if_pos h]
    rfl
  · rw [hself, if_neg (by omega), if_pos h.2]
  · rw [hself, if_neg (by omega), if_neg (by omega), BitVec.toNat_setWidth, BitVec.toNat_setWidth]
    omega
  · rw [hr, Ppu.readData_frame]
  · rw [hq, hframe]
    rfl
  · exact Ppu.writeReg_cart c p 7 d
  · rw [hq]
    rcases Nat.lt_or_ge p.dataAddr.toNat 0x3F00 with hvram | hpal
    · rw [ppuWrite_vram d h hvram]
    · rw [ppuWrite_palette d hpal]
  · rw [hq, ppuWrite_chr d h]
    exact ⟨rfl, rfl⟩

end Sys2Proof
end

section
/-! The raster and the vertical blank (61_ppu.md R830 to R835; 60_exceptions.md R730): where a tick moves, what it does to the
flags and the frame counter, and the NMI it latches. -/

namespace Sys2Proof.Machine

/-! ### The advance of the raster -/

/-- The dot that is skipped, in the words of R834. -/
theorem Ppu.skipsDot_iff (p : Ppu) :
    p.skipsDot = true ↔
      p.scanline = 261 ∧ p.dot = 339 ∧ p.oddFrame = true ∧ (p.mask.getLsbD 3 = true ∨ p.mask.getLsbD 4 = true) := by
  simp [Ppu.skipsDot, Ppu.rendering, bitAt, and_assoc]

theorem Ppu.SameRaster.skipsDot {p q : Ppu} (h : p.SameRaster q) : q.skipsDot = p.skipsDot := by
  simp only [Ppu.skipsDot, Ppu.rendering, h.scanline, h.dot, h.oddFrame, h.mask]

theorem Ppu.SameRaster.position {p q : Ppu} (h : p.SameRaster q) : q.position = p.position := by
  rw [Ppu.position, Ppu.position, h.scanline, h.dot]

/-- The skip ends the frame one dot early. -/
theorem Ppu.advance_skip {p : Ppu} (h : p.skipsDot = true) :
    p.advance.position = 0 ∧ p.advance.oddFrame = !p.oddFrame := by
  obtain ⟨hline, -, -, -⟩ := p.skipsDot_iff.mp h
  have hadvance : p.advance = { p with dot := 0, scanline := 0, oddFrame := !p.oddFrame } := by
    rw [Ppu.advance, h, Bool.true_or, if_pos rfl, Ppu.nextLine, if_pos (by omega)]
  rw [hadvance]
  exact ⟨rfl, rfl⟩

/-- Elsewhere the advance is one dot along the frame, and its parity flips at the end. -/
theorem Ppu.advance_step {p : Ppu} (h : p.skipsDot = false) (hline : p.scanline ≤ 261) (hdot : p.dot ≤ 340) :
    p.advance.position = (p.position + 1) % 89342 ∧
      (p.position = 89341 → p.advance.oddFrame = !p.oddFrame) ∧ (p.position ≠ 89341 → p.advance.oddFrame = p.oddFrame) := by
  simp only [Ppu.advance, Ppu.nextLine, Ppu.position, h, Bool.false_or, decide_eq_true_eq]
  split
  · split
    · exact ⟨by dsimp only; omega, fun _ => rfl, fun hne => absurd (show 341 * p.scanline + p.dot = 89341 by omega) hne⟩
    · exact ⟨by dsimp only; omega, fun he => absurd he (by omega), fun _ => rfl⟩
  · exact ⟨by dsimp only; omega, fun he => absurd he (by omega), fun _ => rfl⟩

/-! ### The flags through the work of a dot -/

/-- `vblank` and the frame counter are the same in `q` as in `p`. -/
structure Ppu.SameVblank (p q : Ppu) : Prop where
  vblank : q.vblank = p.vblank
  frame : q.frame = p.frame

/-- The two sprite flags are the same in `q` as in `p`. -/
structure Ppu.SameSpriteFlags (p q : Ppu) : Prop where
  hit : q.sprite0Hit = p.sprite0Hit
  overflow : q.spriteOverflow = p.spriteOverflow

theorem Ppu.SameVblank.trans {p q r : Ppu} (h : p.SameVblank q) (k : q.SameVblank r) : p.SameVblank r :=
  ⟨k.vblank.trans h.vblank, k.frame.trans h.frame⟩

theorem Ppu.SameSpriteFlags.trans {p q r : Ppu} (h : p.SameSpriteFlags q) (k : q.SameSpriteFlags r) :
    p.SameSpriteFlags r :=
  ⟨k.hit.trans h.hit, k.overflow.trans h.overflow⟩

theorem Ppu.bgWork_flags (c : Cart) (p : Ppu) : p.SameVblank (p.bgWork c) ∧ p.SameSpriteFlags (p.bgWork c) := by
  unfold Ppu.bgWork Ppu.fetchStep
  repeat' split
  all_goals exact ⟨⟨rfl, rfl⟩, ⟨rfl, rfl⟩⟩

theorem Ppu.scrollWork_flags (p : Ppu) : p.SameVblank p.scrollWork ∧ p.SameSpriteFlags p.scrollWork := by
  unfold Ppu.scrollWork
  repeat' split
  all_goals exact ⟨⟨rfl, rfl⟩, ⟨rfl, rfl⟩⟩

theorem Ppu.spriteWork_sameVblank (c : Cart) (p : Ppu) : p.SameVblank (p.spriteWork c) := by
  unfold Ppu.spriteWork
  repeat' split
  all_goals exact ⟨rfl, rfl⟩

theorem Ppu.renderWork_sameVblank (c : Cart) (p : Ppu) : p.SameVblank (p.renderWork c) := by
  unfold Ppu.renderWork
  split
  · exact ((Ppu.bgWork_flags c p).1.trans (Ppu.scrollWork_flags _).1).trans (Ppu.spriteWork_sameVblank c _)
  · exact ⟨rfl, rfl⟩

/-- Sprites are evaluated at dot 257 only (R861). -/
theorem Ppu.renderWork_sameSpriteFlags (c : Cart) {p : Ppu} (h : p.dot ≠ 257) : p.SameSpriteFlags (p.renderWork c) := by
  unfold Ppu.renderWork
  split
  · have hdot : ((p.bgWork c).scrollWork).dot ≠ 257 := by
      rw [(Ppu.scrollWork_sameRaster _).dot, (Ppu.bgWork_sameRaster c p).dot]; exact h
    rw [Ppu.spriteWork, if_neg hdot]
    exact (Ppu.bgWork_flags c p).2.trans (Ppu.scrollWork_flags _).2
  · exact ⟨rfl, rfl⟩

theorem Ppu.pixelWork_sameVblank (c : Cart) (p : Ppu) : p.SameVblank (p.pixelWork c) := by
  unfold Ppu.pixelWork
  split <;> exact ⟨rfl, rfl⟩

/-- Sprite 0 hits on visible lines only (R872). -/
theorem Ppu.pixelWork_sameSpriteFlags (c : Cart) {p : Ppu} (h : 240 ≤ p.scanline) : p.SameSpriteFlags (p.pixelWork c) := by
  rw [Ppu.pixelWork, if_neg fun hvisible => absurd hvisible.1 (Nat.not_lt.mpr h)]
  exact ⟨rfl, rfl⟩

theorem Ppu.advance_flags (p : Ppu) : p.SameVblank p.advance ∧ p.SameSpriteFlags p.advance := by
  unfold Ppu.advance Ppu.nextLine
  repeat' split
  all_goals exact ⟨⟨rfl, rfl⟩, ⟨rfl, rfl⟩⟩

/-- Of a tick's work only the vertical-blank events reach `vblank` and the frame counter. -/
theorem Ppu.tick_sameVblank (c : Cart) (p : Ppu) : p.vblankWork.SameVblank (p.tick c) :=
  ((Ppu.renderWork_sameVblank c _).trans (Ppu.pixelWork_sameVblank c _)).trans (Ppu.advance_flags _).1

/-- On an invisible line, away from dot 257, only they reach the sprite flags. -/
theorem Ppu.tick_sameSpriteFlags (c : Cart) {p : Ppu} (hdot : p.dot ≠ 257) (hline : 240 ≤ p.scanline) :
    p.vblankWork.SameSpriteFlags (p.tick c) := by
  have hblank := Ppu.vblankWork_sameRaster p
  have hrender := Ppu.renderWork_sameSpriteFlags c (p := p.vblankWork) (by rw [hblank.dot]; exact hdot)
  have hpixel := Ppu.pixelWork_sameSpriteFlags c (p := p.vblankWork.renderWork c)
    (by rw [(Ppu.renderWork_sameRaster c _).scanline, hblank.scanline]; exact hline)
  exact (hrender.trans hpixel).trans (Ppu.advance_flags _).2

/-! ### The vertical-blank events -/

theorem Ppu.vblankWork_start {p : Ppu} (hdot : p.dot = 1) (hline : p.scanline = 241) :
    p.vblankWork = { p with vblank := true, frame := p.frame + 1 } := by
  rw [Ppu.vblankWork, if_pos hdot, if_pos hline]

theorem Ppu.vblankWork_end {p : Ppu} (hdot : p.dot = 1) (hline : p.scanline = 261) :
    p.vblankWork = { p with vblank := false, sprite0Hit := false, spriteOverflow := false } := by
  rw [Ppu.vblankWork, if_pos hdot, if_neg (by omega), if_pos hline]

theorem Ppu.vblankWork_frame {p : Ppu} (h : ¬ (p.dot = 1 ∧ p.scanline = 241)) : p.vblankWork.frame = p.frame := by
  unfold Ppu.vblankWork
  split
  · split
    · exact absurd ⟨‹_›, ‹_›⟩ h
    · split <;> rfl
  · rfl

theorem Ppu.vblankWork_vblank {p : Ppu} (h : ¬ (p.dot = 1 ∧ (p.scanline = 241 ∨ p.scanline = 261))) :
    p.vblankWork.vblank = p.vblank := by
  unfold Ppu.vblankWork
  split
  · split
    · exact absurd ⟨‹_›, .inl ‹_›⟩ h
    · split
      · exact absurd ⟨‹_›, .inr ‹_›⟩ h
      · rfl
  · rfl

end Sys2Proof.Machine

namespace Sys2Proof

open Sys2Proof.Machine

/-- Settles O44: the work of the dot leaves the raster alone, and the advance skips or steps. -/
theorem rasterAdvancesOneDot : Obligations.RasterAdvancesOneDot := by
  intro c p hrange q skip
  obtain ⟨r, hsame, htick⟩ := Ppu.tick_advance c p
  have hq : q = r.advance := htick
  have hskip : skip ↔ r.skipsDot = true := by rw [hsame.skipsDot]; exact p.skipsDot_iff.symm
  obtain ⟨hline, hdot, -⟩ := hrange.tick c
  refine ⟨hline, hdot, fun hno => ?_, fun hyes => ?_⟩
  · have hstep := Ppu.advance_step (p := r) (Bool.eq_false_iff.mpr fun h => hno (hskip.mpr h))
      (by rw [hsame.scanline]; exact hrange.scanline) (by rw [hsame.dot]; exact hrange.dot)
    rwa [hsame.position, hsame.oddFrame, ← hq] at hstep
  · have hend := Ppu.advance_skip (hskip.mp hyes)
    rwa [hsame.oddFrame, ← hq] at hend

/-- Settles O45: after the vertical-blank events no part of a tick reaches `vblank` or the frame counter, and at (261, 1) none
reaches the sprite flags. -/
theorem vblankAndNmiLatch : Obligations.VblankAndNmiLatch := by
  intro s t at1
  obtain ⟨hvblank, hframe⟩ := Ppu.tick_sameVblank s.cart s.ppu
  have hctrl := Ppu.tick_ctrl s.cart s.ppu
  refine ⟨fun hdot hline => ?_, fun hdot hline => ?_, fun h => ?_, fun h => ?_, ?_, rfl, rfl, rfl, rfl, rfl, rfl⟩
  · exact ⟨hvblank.trans (by rw [Ppu.vblankWork_start hdot hline]), hframe.trans (by rw [Ppu.vblankWork_start hdot hline])⟩
  · obtain ⟨hhit, hoverflow⟩ := Ppu.tick_sameSpriteFlags s.cart (p := s.ppu) (by rw [show s.ppu.dot = 1 from hdot]; decide)
      (by rw [hline]; decide)
    rw [Ppu.vblankWork_end hdot hline] at hvblank hhit hoverflow
    exact ⟨hvblank, hhit, hoverflow⟩
  · exact hframe.trans (Ppu.vblankWork_frame h)
  · exact hvblank.trans (Ppu.vblankWork_vblank h)
  · show { s.ctl with nmiPending := s.ctl.nmiPending || (!s.ppu.nmiOut && (s.ppu.tick s.cart).nmiOut) } = _
    rw [Ppu.nmiOut, Ppu.nmiOut, hctrl]
    rfl

end Sys2Proof
end

section
/-! Sprite evaluation (61_ppu.md R861): the scan gathers the sprites in range in OAM order, with the state of the scan described by
the list found so far. -/

namespace Sys2Proof.Machine

/-! ### Entries of secondary OAM -/

theorem entry_setIfInBounds {n : Nat} (v : Vector Byte n) (i j : Nat) (x d : Byte) :
    entry (v.setIfInBounds i x) j d = if i = j ∧ j < n then x else entry v j d := by
  rw [entry, entry, Vector.toList_setIfInBounds, List.getD_eq_getElem?_getD, List.getD_eq_getElem?_getD, List.getElem?_set]
  by_cases hij : i = j
  · subst hij
    by_cases hi : i < n <;> simp [hi]
  · simp [hij]

/-- The four bytes of slot `count` are those of sprite `n`, the others are as before. -/
theorem entry_copySprite (oam : Memory) (n : Nat) (sec : Vector Byte 32) (count : Nat) {i : Nat} (hi : i < 32) :
    entry (copySprite oam n sec count) i 0 = if i / 4 = count then Store.read oam (4 * n + i % 4) else entry sec i 0 := by
  simp only [copySprite, entry_setIfInBounds, hi, and_true]
  by_cases hslot : i / 4 = count
  · rw [if_pos hslot]
    have hmod : i % 4 = 0 ∨ i % 4 = 1 ∨ i % 4 = 2 ∨ i % 4 = 3 := by omega
    rcases hmod with h | h | h | h <;> rw [h]
    · rw [if_neg (by omega), if_neg (by omega), if_neg (by omega), if_pos (by omega), Nat.add_zero]
    · rw [if_neg (by omega), if_neg (by omega), if_pos (by omega)]
    · rw [if_neg (by omega), if_pos (by omega)]
    · rw [if_pos (by omega)]
  · rw [if_neg hslot, if_neg (by omega), if_neg (by omega), if_neg (by omega), if_neg (by omega)]

/-! ### The scan -/

/-- The state of a scan that has found the sprites of the list, in this order: the first eight are chosen, a ninth sets the
overflow flag. -/
structure Scanned (oam : Memory) (found : List Nat) (a : SpriteScan) : Prop where
  count : a.count = min 8 found.length
  overflow : a.overflow = decide (8 < found.length)
  zeroHere : a.zeroHere = decide (0 ∈ found.take 8)
  chosen : ∀ k n, k < 8 → found[k]? = some n → ∀ j, j < 4 → entry a.secOam (4 * k + j) 0 = Store.read oam (4 * n + j)
  rest : ∀ k, 4 * a.count ≤ k → k < 32 → entry a.secOam k 0 = 0xFF

/-- Before the scan nothing is found and secondary OAM is filled with $FF. -/
theorem Scanned.start (oam : Memory) :
    Scanned oam [] { secOam := Vector.replicate 32 0xFF, count := 0, zeroHere := false, overflow := false } where
  count := rfl
  overflow := rfl
  zeroHere := rfl
  chosen := nofun
  rest := by decide

/-- A sprite found while there is room goes into the next slot. -/
theorem Scanned.choose {oam : Memory} {found : List Nat} {a : SpriteScan} (h : Scanned oam found a) (n : Nat)
    (hroom : found.length < 8) :
    Scanned oam (found ++ [n])
      { a with
        secOam := copySprite oam n a.secOam a.count, count := a.count + 1, zeroHere := a.zeroHere || n == 0 } := by
  have hcount : a.count = found.length := by rw [h.count]; omega
  have htake : (found ++ [n]).take 8 = found ++ [n] := List.take_of_length_le (by simp; omega)
  have hold : found.take 8 = found := List.take_of_length_le (by omega)
  refine ⟨?_, ?_, ?_, fun k m hk hm j hj => ?_, fun k hk hk32 => ?_⟩
  · simp only [List.length_append, List.length_singleton]
    omega
  · rw [h.overflow, decide_eq_false (by omega), decide_eq_false (by simp; omega)]
  · rw [htake, h.zeroHere, hold]
    simp only [List.mem_append, List.mem_singleton, Bool.decide_or, eq_comm (a := 0) (b := n)]
    rfl
  · dsimp only
    rw [entry_copySprite oam n a.secOam a.count (by omega)]
    rcases Nat.lt_or_ge k found.length with hlt | hge
    · rw [if_neg (by omega)]
      exact h.chosen k m hk (by rwa [List.getElem?_append_left hlt] at hm) j hj
    · have hk : k = found.length := by
        obtain ⟨hlen, -⟩ := List.getElem?_eq_some_iff.mp hm
        simp at hlen
        omega
      subst hk
      rw [List.getElem?_append_right le_rfl, Nat.sub_self] at hm
      obtain rfl : n = m := by simpa using hm
      rw [if_pos (by omega)]
      congr 2
      omega
  · dsimp only at hk ⊢
    rw [entry_copySprite oam n a.secOam a.count hk32, if_neg (by omega)]
    exact h.rest k (by omega) hk32

/-- A sprite found when eight are chosen sets the overflow flag, whatever may follow it. -/
theorem Scanned.ninth {oam : Memory} {found : List Nat} {a : SpriteScan} (h : Scanned oam found a) (hfull : found.length = 8)
    (n : Nat) (more : List Nat) : Scanned oam (found ++ n :: more) { a with overflow := true } where
  count := by rw [h.count]; simp [hfull]
  overflow := by
    rw [decide_eq_true (by simp [hfull])]
  zeroHere := by rw [h.zeroHere, List.take_append_of_le_length (by omega)]
  chosen k m hk hm := h.chosen k m hk (by rwa [List.getElem?_append_left (by omega)] at hm)
  rest := h.rest

/-- The scan from sprite `n` on finds, after what it had found, the sprites in range among the next `left`. -/
theorem Scanned.scan {oam : Memory} (s h left n : Nat) {found : List Nat} {a : SpriteScan} (ha : Scanned oam found a)
    (hlen : found.length ≤ 8) :
    Scanned oam (found ++ (List.range' n left).filter (spriteInRange oam s h)) (scanSprites oam s h left n a) := by
  induction left generalizing n found a with
  | zero => simpa [scanSprites] using ha
  | succ k ih =>
    have hcount := ha.count
    rw [List.range'_succ, scanSprites]
    by_cases hrange : spriteInRange oam s h n = true
    · rw [List.filter_cons_of_pos hrange, if_pos hrange]
      by_cases hroom : a.count < 8
      · rw [if_pos hroom]
        have hnext := ih (n + 1) (ha.choose n (by omega)) (by simp; omega)
        rwa [List.append_assoc, List.singleton_append] at hnext
      · rw [if_neg hroom]
        exact ha.ninth (by omega) n _
    · rw [List.filter_cons_of_neg hrange, if_neg hrange]
      exact ih (n + 1) ha hlen

/-- The sprites in range of a line, in OAM order. -/
def spritesFound (oam : Memory) (s h : Nat) : List Nat := (List.range 64).filter (spriteInRange oam s h)

theorem Ppu.spriteScan_scanned (p : Ppu) (s : Nat) :
    Scanned p.oam (spritesFound p.oam s p.spriteHeight) (p.spriteScan s) := by
  have h := (Scanned.start p.oam).scan s p.spriteHeight 64 0 (Nat.zero_le 8)
  rwa [List.nil_append, ← List.range_eq_range'] at h

/-- Sprite 0, if it is in range, is the first one found. -/
theorem zero_mem_take_spritesFound (oam : Memory) (s h : Nat) :
    0 ∈ (spritesFound oam s h).take 8 ↔ spriteInRange oam s h 0 = true := by
  constructor
  · intro hmem
    exact (List.mem_filter.mp (List.mem_of_mem_take hmem)).2
  · intro hrange
    rw [spritesFound, List.range_eq_range', List.range'_succ, List.filter_cons_of_pos hrange]
    exact List.mem_cons_self

end Sys2Proof.Machine

namespace Sys2Proof

open Sys2Proof.Machine

/-- Settles O46: what `Scanned` says of the whole scan, from all 64 sprites. -/
theorem spriteEvaluationChoosesEight : Obligations.SpriteEvaluationChoosesEight := by
  intro p line h y found scan
  have hscan : Scanned p.oam found scan := Ppu.spriteScan_scanned p line
  refine ⟨hscan.count, hscan.overflow, ?_, hscan.chosen, hscan.rest⟩
  rw [hscan.zeroHere, decide_eq_decide]
  exact (zero_mem_take_spritesFound p.oam line p.spriteHeight).trans decide_eq_true_iff

end Sys2Proof
end

section
/-! The sound unit's registers and units by the bus: $4015 (62_apu.md R921, R922), the frame sequencer (R925, R940 to R942), the
envelope and noise clocks (R931, R937), the memory reader (R962 to R964). -/

namespace Sys2Proof.Machine

/-! ### $4015 -/

theorem busWrite_apuStatus (d : Byte) (s : State) : (busWrite 0x4015 d s).apu = s.apu.writeEnable d := rfl

theorem busRead_apuStatus (s : State) :
    (busRead 0x4015 s).1 = s.apu.status s.busLatch ∧ (busRead 0x4015 s).2.apu = s.apu.afterStatusRead := ⟨rfl, rfl⟩

theorem Dmc.enable_off (m : Dmc) : m.enable false = { m with bytesRemaining := 0 } := rfl

theorem Dmc.enable_restart {m : Dmc} (h : m.bytesRemaining = 0) : m.enable true = m.restart := if_pos h

theorem Dmc.enable_running {m : Dmc} (h : m.bytesRemaining ≠ 0) : m.enable true = m := if_neg h

theorem Apu.status_eq_concat (a : Apu) (latch : Byte) :
    a.status latch =
      (((((((BitVec.ofBool a.dmcIrq).concat a.frameIrq).concat (bitAt latch 5)).concat
        (decide (0 < a.dmc.bytesRemaining.toNat))).concat (decide (0 < a.noise.length))).concat
        (decide (0 < a.triangle.length))).concat (decide (0 < a.pulse2.length))).concat (decide (0 < a.pulse1.length)) := rfl

theorem boolNat_bitAt {n : Nat} (v : BitVec n) (i : Nat) : boolNat (bitAt v i) = v.toNat / 2 ^ i % 2 := by
  rw [bitAt_eq_decide, boolNat]
  split <;> simp_all

theorem Apu.status_toNat (a : Apu) (latch : Byte) :
    (a.status latch).toNat =
      128 * boolNat a.dmcIrq + 64 * boolNat a.frameIrq + 32 * (latch.toNat / 32 % 2) +
        16 * boolNat (decide (0 < a.dmc.bytesRemaining.toNat)) + 8 * boolNat (decide (0 < a.noise.length)) +
        4 * boolNat (decide (0 < a.triangle.length)) + 2 * boolNat (decide (0 < a.pulse2.length)) +
        boolNat (decide (0 < a.pulse1.length)) := by
  have hlatch : latch.toNat / 32 % 2 = (bitAt latch 5).toNat := by rw [← boolNat_eq_toNat, boolNat_bitAt]; rfl
  rw [hlatch]
  simp only [Apu.status_eq_concat, BitVec.toNat_concat, BitVec.toNat_ofBool, boolNat_eq_toNat]
  omega

/-! ### The frame sequencer -/

theorem Apu.frameStep_four {a : Apu} (h : a.fs.fiveStep = false) :
    a.frameStep = (a.setFsCycle (a.fs.cycle + 1)).fourStep (a.fs.cycle + 1) := by
  rw [Apu.frameStep, h]
  rfl

theorem Apu.frameStep_five {a : Apu} (h : a.fs.fiveStep = true) :
    a.frameStep = (a.setFsCycle (a.fs.cycle + 1)).fiveStep (a.fs.cycle + 1) := by
  rw [Apu.frameStep, h]
  rfl

/-- No count of the 5-step sequence raises the frame interrupt (R940, R941). -/
theorem Apu.fiveStep_frameIrq (a : Apu) (k : Nat) : (a.fiveStep k).frameIrq = a.frameIrq := by
  unfold Apu.fiveStep
  repeat' split
  all_goals rfl

/-- What a write of $4017 makes of the sequencer and its flag, before it may clock (R925). -/
def Apu.resetSequencer (a : Apu) (d : Byte) : Apu :=
  { a with
    fs := { fiveStep := bitAt d 7, irqInhibit := bitAt d 6, cycle := 0 }
    frameIrq := a.frameIrq && !bitAt d 6 }

theorem Apu.writeFrameCounter_five {d : Byte} (h : d.getLsbD 7 = true) (a : Apu) :
    a.writeFrameCounter d = (a.resetSequencer d).quarterFrame.halfFrame := if_pos h

theorem Apu.writeFrameCounter_four {d : Byte} (h : d.getLsbD 7 = false) (a : Apu) :
    a.writeFrameCounter d = a.resetSequencer d := if_neg (by rw [bitAt, h]; decide)

/-- Quarter- and half-frame clocks touch neither the sequencer nor its flag. -/
theorem Apu.writeFrameCounter_sequencer (a : Apu) (d : Byte) :
    (a.writeFrameCounter d).fs = (a.resetSequencer d).fs ∧
      (a.writeFrameCounter d).frameIrq = (a.resetSequencer d).frameIrq := by
  cases h : d.getLsbD 7 with
  | true => rw [Apu.writeFrameCounter_five h]; exact ⟨rfl, rfl⟩
  | false => rw [Apu.writeFrameCounter_four h]; exact ⟨rfl, rfl⟩

/-! ### The envelope and the noise timer -/

theorem Envelope.clock_start {e : Envelope} (h : e.start = true) (vol : BitVec 4) (loop : Bool) :
    e.clock vol loop = { start := false, decay := 15, divider := vol } := if_pos h

theorem Envelope.clock_reload {e : Envelope} (h : e.start = false) (h0 : e.divider = 0) (vol : BitVec 4) (loop : Bool) :
    e.clock vol loop =
      { e with divider := vol, decay := if e.decay ≠ 0 then e.decay - 1 else if loop then 15 else 0 } :=
  (if_neg (by rw [h]; decide)).trans (if_pos h0)

theorem Envelope.clock_count {e : Envelope} (h : e.start = false) (h0 : e.divider ≠ 0) (vol : BitVec 4) (loop : Bool) :
    e.clock vol loop = { e with divider := e.divider - 1 } :=
  (if_neg (by rw [h]; decide)).trans (if_neg h0)

/-- A counter that is not 0 counts down as a number does. -/
theorem toNat_sub_one {n : Nat} {v : BitVec n} (h : v ≠ 0) : (v - 1).toNat = v.toNat - 1 := by
  have hpos : v.toNat ≠ 0 := fun e => h (BitVec.eq_of_toNat_eq (e.trans BitVec.toNat_zero.symm))
  have hlt := v.isLt
  rcases n with _ | n
  · exact absurd (BitVec.eq_nil v) fun e => h (by rw [e])
  · have hone : (1 : BitVec (n + 1)).toNat = 1 := by simp
    rw [BitVec.toNat_sub_of_le (by rw [BitVec.le_def, hone]; omega), hone]

theorem Noise.timerStep_count {n : Noise} (h : n.timer ≠ 0) : n.timerStep = { n with timer := n.timer - 1 } := if_neg h

theorem Noise.timerStep_reload {n : Noise} (h : n.timer = 0) :
    n.timerStep =
      { n with
        timer := BitVec.ofNat 12 (tableAt noiseTable n.periodIndex.toNat - 1), lfsr := lfsrNext n.mode n.lfsr } := if_pos h

/-! ### The memory reader -/

theorem dmcReader_idle {s : State} (h : s.apu.dmc.bufferFull = true ∨ s.apu.dmc.bytesRemaining = 0) (cycle : Nat) :
    dmcReader cycle s = s := by
  have hidle : s.apu.dmc.wantsByte = false := by
    rcases h with h | h <;> simp [Dmc.wantsByte, h]
  rw [dmcReader, if_neg (by rw [hidle]; decide)]

/-- A fetch is one bus read with the tick's cycle, then the byte taken and the stall owed; the read leaves the DMC alone. -/
theorem dmcReader_fetch {s : State} (hempty : s.apu.dmc.bufferFull = false) (hleft : s.apu.dmc.bytesRemaining ≠ 0)
    (cycle : Nat) :
    dmcReader cycle s =
      { (busReadAt cycle s.apu.dmc.curAddr s).2 with
        apu := (busReadAt cycle s.apu.dmc.curAddr s).2.apu.takeByte (s.peek s.apu.dmc.curAddr)
        ctl := { s.ctl with stallCycles := s.ctl.stallCycles + 4 } } := by
  have hwants : s.apu.dmc.wantsByte = true := by simpa [Dmc.wantsByte, hempty] using hleft
  have hctl : (busReadAt cycle s.apu.dmc.curAddr s).2.ctl = s.ctl := (readRegion_frame _ s).2.1
  rw [dmcReader, if_pos hwants]
  simp only [hctl]
  rfl

/-- Whatever byte comes, it fills the buffer. -/
theorem Apu.takeByte_buffer (a : Apu) (b : Byte) :
    (a.takeByte b).dmc.buffer = b ∧ (a.takeByte b).dmc.bufferFull = true := by
  unfold Apu.takeByte
  dsimp only
  repeat' split
  all_goals exact ⟨rfl, rfl⟩

theorem Apu.takeByte_more {a : Apu} (h : a.dmc.bytesRemaining - 1 ≠ 0) (b : Byte) :
    a.takeByte b = { a with dmc := a.dmc.takeByte b } := if_neg h

theorem Apu.takeByte_loop {a : Apu} (h : a.dmc.bytesRemaining - 1 = 0) (hloop : a.dmc.loop = true) (b : Byte) :
    a.takeByte b = { a with dmc := (a.dmc.takeByte b).restart } := (if_pos h).trans (if_pos hloop)

theorem Apu.takeByte_last {a : Apu} (h : a.dmc.bytesRemaining - 1 = 0) (hloop : a.dmc.loop = false) (b : Byte) :
    a.takeByte b = { a with dmc := a.dmc.takeByte b, dmcIrq := a.dmcIrq || a.dmc.irqEnable } :=
  (if_pos h).trans (if_neg (by show ¬ a.dmc.loop = true; rw [hloop]; decide))

/-- The address after a fetch, with its wrap from $FFFF to $8000 (R962). -/
theorem Dmc.takeByte_curAddr_toNat (m : Dmc) (b : Byte) :
    (m.takeByte b).curAddr.toNat = if m.curAddr.toNat = 0xFFFF then 0x8000 else m.curAddr.toNat + 1 := by
  unfold Dmc.takeByte
  dsimp only
  split
  · next h => rw [h]; rfl
  · next h =>
    have hne : m.curAddr.toNat ≠ 0xFFFF := fun e => h (BitVec.eq_of_toNat_eq e)
    rw [if_neg hne]
    bv_omega

end Sys2Proof.Machine

namespace Sys2Proof

open Sys2Proof.Machine

/-- Settles O47: the write is `writeEnable`, channel by channel; the byte read is eight flags in a row. -/
theorem channelEnableAndStatus : Obligations.ChannelEnableAndStatus := by
  intro s d t on
  obtain ⟨hbyte, hread⟩ := busRead_apuStatus s
  refine ⟨rfl, rfl, rfl, rfl, fun h => ?_, fun h hempty => ?_, fun h hrunning => ?_, rfl, rfl, rfl, ?_, hread⟩
  · exact (congrArg s.apu.dmc.enable h).trans (Dmc.enable_off _)
  · exact (congrArg s.apu.dmc.enable h).trans (Dmc.enable_restart hempty)
  · exact (congrArg s.apu.dmc.enable h).trans (Dmc.enable_running hrunning)
  · rw [hbyte]
    exact Apu.status_toNat s.apu s.busLatch

/-- Settles O48: each count is one branch of its mode's table; a write of $4017 sets the sequencer and clocks in 5-step mode. -/
theorem frameSequencerSteps : Obligations.FrameSequencerSteps := by
  intro a k b counted
  refine ⟨fun hmode => ?_, fun hmode => ?_, ?_⟩
  · have hb : b = counted.fourStep k := Apu.frameStep_four hmode
    refine ⟨fun h => ?_, fun h => ?_, fun h => ?_, fun h1 h2 h3 h4 => ?_⟩
    · rw [hb, Apu.fourStep, if_neg (by omega), if_neg (by omega), if_pos h]
      exact ⟨rfl, rfl, rfl⟩
    · rw [hb, Apu.fourStep, if_neg (by omega), if_pos h]
    · rw [hb, Apu.fourStep, if_pos h]
    · rw [hb, Apu.fourStep, if_neg (by omega), if_neg h2, if_neg h1]
  · have hb : b = counted.fiveStep k := Apu.frameStep_five hmode
    refine ⟨fun h => ?_, fun h => ?_, fun h => ?_, fun h1 h2 h3 h4 => ?_, ?_⟩
    · rw [hb, Apu.fiveStep, if_neg (by omega), if_neg (by omega), if_pos h]
      exact ⟨rfl, rfl⟩
    · rw [hb, Apu.fiveStep, if_neg (by omega), if_pos h]
    · rw [hb, Apu.fiveStep, if_pos h]
    · rw [hb, Apu.fiveStep, if_neg (by omega), if_neg h2, if_neg h1]
    · rw [hb, Apu.fiveStep_frameIrq]
  · intro d w rest
    obtain ⟨hfs, hirq⟩ := a.writeFrameCounter_sequencer d
    refine ⟨hfs, hirq, fun h => ?_, fun h => ?_⟩
    · have hw : w = (a.resetSequencer d).quarterFrame.halfFrame := Apu.writeFrameCounter_five h a
      show ({ w with fs := a.fs, frameIrq := a.frameIrq } : Apu) = _
      rw [hw]
      rfl
    · have hw : w = a.resetSequencer d := Apu.writeFrameCounter_four h a
      show ({ w with fs := a.fs, frameIrq := a.frameIrq } : Apu) = _
      rw [hw]
      rfl

/-- Settles O49: the branches of the envelope's clock and of the noise timer, with the counters read as numbers. -/
theorem envelopeAndNoiseClocks : Obligations.EnvelopeAndNoiseClocks := by
  refine ⟨?_, fun n => ⟨fun h => ?_, fun h => ?_⟩⟩
  · intro e vol loop f
    refine ⟨fun h => Envelope.clock_start h vol loop, fun h h0 => ?_, fun h h0 => ?_, rfl, rfl⟩
    · have hf : f = _ := Envelope.clock_reload h h0 vol loop
      rw [hf]
      refine ⟨h, rfl, ?_⟩
      by_cases hdecay : e.decay = 0
      · rw [hdecay]
        cases loop <;> rfl
      · have hpos : 0 < e.decay.toNat := Nat.pos_of_ne_zero fun e0 => hdecay (BitVec.eq_of_toNat_eq e0)
        dsimp only
        rw [if_pos hdecay, if_pos hpos, toNat_sub_one hdecay]
    · have hf : f = _ := Envelope.clock_count h h0 vol loop
      rw [hf]
      exact ⟨h, toNat_sub_one h0, rfl⟩
  · have hcount : n.timer - 1 = BitVec.ofNat 12 (n.timer.toNat - 1) := by
      rw [← toNat_sub_one h, BitVec.ofNat_toNat, BitVec.setWidth_eq]
    rw [Noise.timerStep_count h, hcount]
  · have hperiod := noiseTable_le n.periodIndex.toNat
    rw [Noise.timerStep_reload h]
    refine ⟨?_, fun i hi => lfsrNext_getLsbD_of_lt n.mode n.lfsr hi, lfsrNext_getLsbD_top n.mode n.lfsr⟩
    rw [BitVec.toNat_ofNat]
    exact Nat.mod_eq_of_lt (by omega)

/-- Settles O50: the fetch is one bus read, which leaves the DMC alone, and then one of the three cases of the byte count. -/
theorem dmcReaderFetchesBytes : Obligations.DmcReaderFetchesBytes := by
  intro s cycle m t
  refine ⟨fun h => dmcReader_idle h cycle, fun hempty hleft => ?_⟩
  let r := (busReadAt cycle m.curAddr s).2
  have ht : t = { r with
      apu := r.apu.takeByte (s.peek m.curAddr), ctl := { s.ctl with stallCycles := s.ctl.stallCycles + 4 } } :=
    dmcReader_fetch hempty hleft cycle
  obtain ⟨hregs, hctl, -, htrace, hreads⟩ := readRegion_frame m.curAddr s
  have hapu : r.apu = { s.apu with frameIrq := r.apu.frameIrq } := hreads.apu
  have hdmc : r.apu.dmc = m := by rw [hapu]
  have hirq : r.apu.dmcIrq = s.apu.dmcIrq := by rw [hapu]
  obtain ⟨hbuffer, hfull⟩ := r.apu.takeByte_buffer (s.peek m.curAddr)
  have hcount : (m.bytesRemaining - 1).toNat = m.bytesRemaining.toNat - 1 := toNat_sub_one hleft
  have hlast (h : m.bytesRemaining.toNat = 1) : r.apu.dmc.bytesRemaining - 1 = 0 := by
    rw [hdmc]
    exact BitVec.eq_of_toNat_eq (by rw [hcount, h]; rfl)
  rw [ht]
  refine ⟨hbuffer, hfull, rfl, hregs, hreads.ram, hreads.cart, ?_, fun h => ?_, fun h hloop => ?_,
    fun h hloop => ?_⟩
  · refine ⟨_, ?_, ?_, ?_, ?_, congrArg (_ :: ·) htrace⟩ <;> rfl
  · have hmore : r.apu.dmc.bytesRemaining - 1 ≠ 0 := by
      rw [hdmc]
      intro e
      have hpos : m.bytesRemaining.toNat ≠ 0 := fun e0 => hleft (BitVec.eq_of_toNat_eq e0)
      have hzero : (m.bytesRemaining - 1).toNat = 0 := by rw [e]; rfl
      omega
    dsimp only
    rw [Apu.takeByte_more hmore, hdmc]
    exact ⟨hcount, Dmc.takeByte_curAddr_toNat m _, hirq⟩
  · dsimp only
    rw [Apu.takeByte_loop (hlast h) (by rw [hdmc]; exact hloop), hdmc]
    exact ⟨rfl, rfl, hirq⟩
  · dsimp only
    rw [Apu.takeByte_last (hlast h) (by rw [hdmc]; exact hloop), hdmc, hirq]
    refine ⟨?_, rfl⟩
    have hzero := hlast h
    rwa [hdmc] at hzero

end Sys2Proof
end

section
/-! The mixer in exact arithmetic (62_apu.md R970, R971): each part is a quotient with a positive denominator, or 0. -/

namespace Sys2Proof.Machine

/-- The denominator of the pulse part. -/
def pulseDen (p1 p2 : Nat) : Rat := 8128 / ((p1 + p2 : Nat) : Rat) + 100

/-- The denominator of the triangle, noise and DMC part. -/
def tndDen (t n d : Nat) : Rat := 1 / ((t : Rat) / 8227 + (n : Rat) / 12241 + (d : Rat) / 22638) + 100

theorem pulseDen_pos (p1 p2 : Nat) : 0 < pulseDen p1 p2 := by
  unfold pulseDen
  positivity

theorem tndDen_pos (t n d : Nat) : 0 < tndDen t n d := by
  unfold tndDen
  positivity

theorem mixPulse_silent {p1 p2 : Nat} (h : p1 + p2 = 0) : mixPulse p1 p2 = 0 := if_pos h

theorem mixPulse_sounding {p1 p2 : Nat} (h : 0 < p1 + p2) : mixPulse p1 p2 = 9588 / 100 / pulseDen p1 p2 :=
  if_neg (Nat.ne_of_gt h)

theorem mixTnd_silent {t n d : Nat} (h : t = 0 ∧ n = 0 ∧ d = 0) : mixTnd t n d = 0 := if_pos h

theorem mixTnd_sounding {t n d : Nat} (h : 0 < t + n + d) : mixTnd t n d = 15979 / 100 / tndDen t n d :=
  if_neg (by omega)

theorem mixPulse_nonneg (p1 p2 : Nat) : 0 ≤ mixPulse p1 p2 := by
  rcases Nat.eq_zero_or_pos (p1 + p2) with h | h
  · rw [mixPulse_silent h]
  · have hden := pulseDen_pos p1 p2
    rw [mixPulse_sounding h]
    positivity

theorem mixTnd_nonneg (t n d : Nat) : 0 ≤ mixTnd t n d := by
  rcases Nat.eq_zero_or_pos (t + n + d) with h | h
  · rw [mixTnd_silent (by omega)]
  · have hden := tndDen_pos t n d
    rw [mixTnd_sounding h]
    positivity

theorem mixPulse_eq_zero_iff (p1 p2 : Nat) : mixPulse p1 p2 = 0 ↔ p1 + p2 = 0 := by
  refine ⟨fun hzero => Nat.eq_zero_of_not_pos fun h => ?_, mixPulse_silent⟩
  rw [mixPulse_sounding h] at hzero
  exact absurd hzero (div_pos (by norm_num) (pulseDen_pos p1 p2)).ne'

theorem mixTnd_eq_zero_iff (t n d : Nat) : mixTnd t n d = 0 ↔ t = 0 ∧ n = 0 ∧ d = 0 := by
  refine ⟨fun hzero => ?_, mixTnd_silent⟩
  have hsilent : t + n + d = 0 := Nat.eq_zero_of_not_pos fun h => by
    rw [mixTnd_sounding h] at hzero
    exact absurd hzero (div_pos (by norm_num) (tndDen_pos t n d)).ne'
  omega

end Sys2Proof.Machine

namespace Sys2Proof

open Sys2Proof.Machine

/-- Settles O51: neither part is negative, so the sum is 0 only where both are; each part times its denominator is its constant. -/
theorem mixerIsNonlinearSum : Obligations.MixerIsNonlinearSum := by
  intro p1 p2 t n d
  have hpulse : mix p1 p2 0 0 0 = mixPulse p1 p2 := by rw [mix, mixTnd_silent ⟨rfl, rfl, rfl⟩, add_zero]
  have htnd : mix 0 0 t n d = mixTnd t n d := by rw [mix, mixPulse_silent rfl, zero_add]
  refine ⟨?_, fun q1 q2 hsum => ?_, ?_, fun h => ?_, fun h => ?_⟩
  · rw [mix, add_eq_zero_iff_of_nonneg (mixPulse_nonneg p1 p2) (mixTnd_nonneg t n d), mixPulse_eq_zero_iff,
      mixTnd_eq_zero_iff]
    omega
  · simp only [mix, mixPulse, hsum]
  · rw [hpulse, htnd, mix]
  · rw [hpulse, mixPulse_sounding h]
    exact div_mul_cancel₀ _ (pulseDen_pos p1 p2).ne'
  · rw [htnd, mixTnd_sounding h]
    exact div_mul_cancel₀ _ (tndDen_pos t n d).ne'

end Sys2Proof
end

section
/-! Reset, field by field, and again (70_reset_and_hazards.md R1030, R1031). -/

namespace Sys2Proof.Machine

/-- The word at the reset vector with the bank registers at 0 (R234, R1030). -/
def State.resetWord (s : State) : Word := ({ s with cart := s.cart.reset } : State).peekWord resetVector

/-- The two vector reads of a reset, newest first. -/
def State.resetEvents (s : State) : List BusEvent :=
  [BusEvent.vectorRead 0xFFFD (hiByte s.resetWord) s.inputs, BusEvent.vectorRead 0xFFFC (loByte s.resetWord) s.inputs]

/-- Everything a reset leaves: the vector is read from ROM after the latches have their values. -/
theorem resetOp_fields (s : State) :
    resetOp s =
      { s with
        regs := { a := 0, x := 0, y := 0, sp := 0xFD, pc := s.resetWord, p := Flags.reset }
        ctl := { State.reset.ctl with cyclesTotal := 7, instrPc := s.resetWord, instrCycle := 7 }
        busLatch := hiByte s.resetWord
        cart := s.cart.reset
        ppu := Ppu.resetWith s.ppu.vram s.ppu.palette s.ppu.oam
        apu := Apu.reset
        pads := Pads.reset
        trace := s.resetEvents ++ s.trace } := by
  have hread := read16_storage (s := s.resetLatches) (a := resetVector) (b := resetVector + 1) (.inr (by decide))
    (.inr (by decide))
  have hpeek {a : Word} (ha : isStorage a = true) : s.resetLatches.peek a = ({ s with cart := s.cart.reset } : State).peek a :=
    State.peek_congr (s := { s with cart := s.cart.reset }) (t := s.resetLatches) rfl rfl ha
  have hlo : s.resetLatches.peek resetVector = loByte s.resetWord := by
    rw [hpeek (by decide), State.resetWord, State.peekWord, loByte_wordOf]
  have hhi : s.resetLatches.peek (resetVector + 1) = hiByte s.resetWord := by
    rw [hpeek (by decide), State.resetWord, State.peekWord, hiByte_wordOf]
  rw [hlo, hhi, wordOf_hi_lo] at hread
  simp only [resetOp, hread]
  rfl

/-- A reset keeps the bytes its vector is read from. -/
theorem resetWord_resetOp (s : State) : (resetOp s).resetWord = s.resetWord := by
  have hfields := resetOp_fields s
  have hpeek {a : Word} (ha : isStorage a = true) :
      ({ resetOp s with cart := (resetOp s).cart.reset } : State).peek a = ({ s with cart := s.cart.reset } : State).peek a :=
    State.peek_congr (by rw [hfields]) (by rw [hfields]; rfl) ha
  rw [State.resetWord, State.peekWord, hpeek (by decide), hpeek (by decide)]
  rfl

/-- Two resets in a row leave the same state as one, but for the second one's events (R1031). -/
theorem resetOp_resetOp (s : State) : { resetOp (resetOp s) with trace := (resetOp s).trace } = resetOp s := by
  rw [resetOp_fields (resetOp s), resetWord_resetOp, resetOp_fields s]
  rfl

end Sys2Proof.Machine

namespace Sys2Proof

open Sys2Proof.Machine

/-- Settles O31: the fields a reset leaves, and that it leaves its own result as it is. -/
theorem resetOperation : Obligations.ResetOperation := by
  intro s t banked event
  have ht : t = _ := resetOp_fields s
  have hagain : { resetOp t with trace := t.trace } = t := resetOp_resetOp s
  have hlo : loByte s.resetWord = banked.peek 0xFFFC := loByte_wordOf _ _
  have hhi : hiByte s.resetWord = banked.peek 0xFFFD := hiByte_wordOf _ _
  have hevents : s.resetEvents = [event 0xFFFD, event 0xFFFC] := by rw [State.resetEvents, hlo, hhi]; rfl
  rw [ht] at hagain ⊢
  refine ⟨rfl, rfl, rfl, rfl, rfl, rfl, rfl, rfl, rfl, rfl, rfl, rfl, rfl, rfl, ?_, hagain⟩
  exact congrArg (· ++ s.trace) hevents

end Sys2Proof
end

section
/-! Words of the opcode table (30_encoding.md §7). -/

namespace Sys2Proof

/-- Settles O4: the decoder evaluated on the twelve words. -/
theorem tableWordsDecode : Obligations.TableWordsDecode :=
  ⟨rfl, rfl, rfl, rfl, rfl, rfl, rfl, rfl, rfl, rfl, rfl, rfl⟩

end Sys2Proof
end

section
/-! The tick loop in numbers (70_reset_and_hazards.md R1001, R1014): the loop as a fold, the APU's parity and sample clock
(62_apu.md R901, R980), and the way the raster goes along the frame (61_ppu.md R830, R834). -/

namespace Sys2Proof.Machine

/-! ### The loop as a fold -/

/-- The devices' part of one CPU cycle, with the `cycle` its transactions carry. -/
def deviceTicks (cycle : Nat) (s : State) : State := apuTick cycle (ppuTick (ppuTick (ppuTick s)))

theorem DevicesOnly.deviceTicks (cycle : Nat) (s : State) : DevicesOnly s (Machine.deviceTicks cycle s) :=
  (((DevicesOnly.ppuTick s).trans (DevicesOnly.ppuTick _)).trans (DevicesOnly.ppuTick _)).trans (apuTick_frame _ _).1

/-- Device work leaves `cycles_total`, so each cycle's transactions count from the total at the step's start. -/
theorem deviceCycles_eq_foldl (n k : Nat) (s : State) :
    deviceCycles n k s = (List.range' k n).foldl (fun w i => deviceTicks (s.ctl.cyclesTotal + i) w) s := by
  induction n generalizing k s with
  | zero => rfl
  | succ n ih =>
    have htotal : (deviceCycle k s).ctl.cyclesTotal = s.ctl.cyclesTotal := by rw [(DevicesOnly.deviceCycle k s).ctl]
    rw [deviceCycles, ih, htotal, List.range'_succ, List.foldl_cons]
    rfl

/-! ### Parity and sample clock -/

theorem Apu.SameClocks.trans {a b c : Apu} (h : a.SameClocks b) (k : b.SameClocks c) : a.SameClocks c :=
  ⟨k.odd.trans h.odd, k.samples.trans h.samples, k.samplePhase.trans h.samplePhase⟩

theorem Apu.SameClocks.frameStep (a : Apu) : a.SameClocks a.frameStep := by
  unfold Apu.frameStep Apu.fiveStep Apu.fourStep
  dsimp only
  repeat' split
  all_goals exact ⟨rfl, rfl, rfl⟩

theorem Apu.SameClocks.tickUnits (a : Apu) : a.SameClocks a.tickUnits := by
  refine (Apu.SameClocks.frameStep a).trans ?_
  unfold Apu.tickUnits Apu.pulseSteps
  dsimp only
  split <;> exact ⟨rfl, rfl, rfl⟩

theorem Apu.SameClocks.takeByte (a : Apu) (b : Byte) : a.SameClocks (a.takeByte b) := by
  unfold Apu.takeByte
  dsimp only
  repeat' split
  all_goals exact ⟨rfl, rfl, rfl⟩

theorem Apu.SameClocks.dmcReader (cycle : Nat) (s : State) : s.apu.SameClocks (Machine.dmcReader cycle s).apu := by
  unfold Machine.dmcReader
  split
  · have hread : s.apu.SameClocks (busReadAt cycle s.apu.dmc.curAddr s).2.apu := by
      have hapu : (busReadAt cycle s.apu.dmc.curAddr s).2.apu = _ :=
        (readRegion_frame s.apu.dmc.curAddr s).2.2.2.2.apu
      rw [hapu]
      exact ⟨rfl, rfl, rfl⟩
    exact hread.trans (Apu.SameClocks.takeByte _ _)
  · exact ⟨rfl, rfl, rfl⟩

/-- The time the sample clock has counted: its phase and one period for each sample made (R980). -/
def Apu.sampleTime (a : Apu) : Rat := a.samplePhase + Config.samplePeriod * (a.samples.length : Rat)

/-- A sample takes one period off the phase, so each tick counts one. -/
theorem Apu.sampleTime_sampleStep (a : Apu) : a.sampleStep.sampleTime = a.sampleTime + 1 := by
  unfold Apu.sampleTime Apu.sampleStep
  dsimp only
  split
  · rw [List.length_cons]
    push_cast
    ring
  · ring

theorem Apu.SameClocks.sampleTime {a b : Apu} (h : a.SameClocks b) : b.sampleTime = a.sampleTime := by
  rw [Apu.sampleTime, Apu.sampleTime, h.samples, h.samplePhase]

/-- One device cycle flips the parity and counts one tick of the sample clock. -/
theorem deviceTicks_clocks (cycle : Nat) (s : State) :
    (deviceTicks cycle s).apu.odd = !s.apu.odd ∧ (deviceTicks cycle s).apu.sampleTime = s.apu.sampleTime + 1 := by
  let u : State := ppuTick (ppuTick (ppuTick s))
  let v : State := dmcReader cycle { u with apu := u.apu.tickUnits }
  have hv : s.apu.SameClocks v.apu :=
    (Apu.SameClocks.tickUnits s.apu).trans (Apu.SameClocks.dmcReader cycle { u with apu := u.apu.tickUnits })
  have hapu : (deviceTicks cycle s).apu = v.apu.tickEnd := rfl
  rw [hapu]
  exact ⟨congrArg (!·) hv.odd, (Apu.sampleTime_sampleStep v.apu).trans (by rw [hv.sampleTime])⟩

/-- So `n` cycles flip it `n` times and count `n`. -/
theorem foldl_deviceTicks_clocks (c n : Nat) (s : State) :
    let t := (List.range n).foldl (fun w i => deviceTicks (c + i) w) s
    t.apu.odd = (s.apu.odd ^^ decide (n % 2 = 1)) ∧ t.apu.sampleTime = s.apu.sampleTime + n := by
  induction n with
  | zero => simp
  | succ n ih =>
    obtain ⟨hodd, htime⟩ := ih
    rw [List.range_succ, List.foldl_concat]
    obtain ⟨hflip, hcount⟩ := deviceTicks_clocks (c + n) ((List.range n).foldl (fun w i => deviceTicks (c + i) w) s)
    refine ⟨?_, ?_⟩
    · rw [hflip, hodd]
      rcases Nat.mod_two_eq_zero_or_one n with h | h
      · simp [h, show (n + 1) % 2 = 1 by omega]
      · simp [h, show (n + 1) % 2 = 0 by omega]
    · rw [hcount, htime]
      push_cast
      ring

/-! ### The raster -/

theorem ppuTick_ppu (s : State) : (ppuTick s).ppu = s.ppu.tick s.cart := rfl

theorem ppuTick_cart (s : State) : (ppuTick s).cart = s.cart := rfl

/-- A device cycle moves the raster by three ticks; the APU's tick leaves it. -/
theorem deviceTicks_sameRaster (cycle : Nat) (s : State) :
    (((s.ppu.tick s.cart).tick s.cart).tick s.cart).SameRaster (deviceTicks cycle s).ppu := by
  have h := (apuTick_frame cycle (ppuTick (ppuTick (ppuTick s)))).2.1
  rw [ppuTick_ppu, ppuTick_ppu, ppuTick_ppu, ppuTick_cart, ppuTick_cart] at h
  exact h

/-- A property of the PPU after `j` dots that each tick carries on, and that depends on the raster alone, holds after the ticks of
the loop. -/
theorem foldl_deviceTicks_raster {Q : Nat → Ppu → Prop} {n : Nat}
    (hsame : ∀ j p q, p.SameRaster q → Q j p → Q j q)
    (htick : ∀ j c p, j < 3 * n → Q j p → Q (j + 1) (p.tick c)) (c : Nat) {s : State} (h : Q 0 s.ppu) :
    ∀ m, m ≤ n → Q (3 * m) ((List.range m).foldl (fun w i => deviceTicks (c + i) w) s).ppu := by
  intro m
  induction m with
  | zero => exact fun _ => h
  | succ m ih =>
    intro hm
    rw [List.range_succ, List.foldl_concat]
    let w := (List.range m).foldl (fun w i => deviceTicks (c + i) w) s
    have h1 := htick (3 * m) w.cart w.ppu (by omega) (ih (by omega))
    have h2 := htick _ w.cart _ (by omega) h1
    have h3 := htick _ w.cart _ (by omega) h2
    exact hsame _ _ _ (deviceTicks_sameRaster (c + m) w) h3

/-- The raster stands in a frame of 262 lines of 341 dots. -/
structure Ppu.InFrame (p : Ppu) : Prop where
  scanline : p.scanline ≤ 261
  dot : p.dot ≤ 340

theorem Ppu.InFrame.sameRaster {p q : Ppu} (h : p.InFrame) (hsame : p.SameRaster q) : q.InFrame :=
  ⟨hsame.scanline ▸ h.scanline, hsame.dot ▸ h.dot⟩

theorem Ppu.InFrame.tick {p : Ppu} (h : p.InFrame) (c : Cart) : (p.tick c).InFrame := by
  obtain ⟨q, hsame, htick⟩ := Ppu.tick_advance c p
  obtain ⟨hline, hdot⟩ := h.sameRaster hsame
  obtain ⟨hline', hdot'⟩ := Ppu.advance_range hline hdot
  exact htick ▸ ⟨hline', hdot'⟩

theorem Ppu.InFrame.position_lt {p : Ppu} (h : p.InFrame) : p.position < 89342 := by
  obtain ⟨hline, hdot⟩ := h
  rw [Ppu.position]
  omega

/-- A tick that skips no dot, from a raster in a frame. -/
theorem Ppu.tick_step (c : Cart) {p : Ppu} (h : p.InFrame) (hskip : p.skipsDot = false) :
    (p.tick c).position = (p.position + 1) % 89342 ∧ (p.position ≠ 89341 → (p.tick c).oddFrame = p.oddFrame) := by
  obtain ⟨q, hsame, htick⟩ := Ppu.tick_advance c p
  obtain ⟨hline, hdot⟩ := h.sameRaster hsame
  obtain ⟨hposition, -, hparity⟩ := Ppu.advance_step (hsame.skipsDot.trans hskip) hline hdot
  rw [hsame.position] at hposition hparity
  rw [hsame.oddFrame] at hparity
  rw [htick]
  exact ⟨hposition, hparity⟩

/-- A tick that skips a dot starts at dot 339 of the last line of an odd frame and ends at the top of an even one. -/
theorem Ppu.tick_skip (c : Cart) {p : Ppu} (hskip : p.skipsDot = true) :
    p.position = 89340 ∧ p.oddFrame = true ∧ (p.tick c).position = 0 ∧ (p.tick c).oddFrame = false := by
  obtain ⟨q, hsame, htick⟩ := Ppu.tick_advance c p
  obtain ⟨hline, hdot, hodd, -⟩ := p.skipsDot_iff.mp hskip
  obtain ⟨hposition, hparity⟩ := Ppu.advance_skip (hsame.skipsDot.trans hskip)
  rw [hsame.oddFrame, hodd] at hparity
  rw [htick]
  exact ⟨by rw [Ppu.position, hline, hdot], hodd, hposition, hparity⟩

/-- With rendering off no dot is skipped (R834). -/
theorem Ppu.skipsDot_off {p : Ppu} (h3 : p.mask.getLsbD 3 = false) (h4 : p.mask.getLsbD 4 = false) : p.skipsDot = false :=
  Bool.eq_false_iff.mpr fun hskip => by
    obtain ⟨-, -, -, hon⟩ := p.skipsDot_iff.mp hskip
    rw [h3, h4] at hon
    exact Bool.false_ne_true (hon.elim id id)

/-- The raster `j` dots on from position `start` with rendering off. -/
structure Ppu.Dark (start j : Nat) (p : Ppu) : Prop where
  inFrame : p.InFrame
  bit3 : p.mask.getLsbD 3 = false
  bit4 : p.mask.getLsbD 4 = false
  position : p.position = (start + j) % 89342

theorem Ppu.Dark.sameRaster {start j : Nat} {p q : Ppu} (hsame : p.SameRaster q) (h : p.Dark start j) : q.Dark start j :=
  ⟨h.inFrame.sameRaster hsame, hsame.mask ▸ h.bit3, hsame.mask ▸ h.bit4, hsame.position.trans h.position⟩

theorem Ppu.Dark.tick {start j : Nat} (c : Cart) {p : Ppu} (h : p.Dark start j) : (p.tick c).Dark start (j + 1) := by
  obtain ⟨hposition, -⟩ := Ppu.tick_step c h.inFrame (Ppu.skipsDot_off h.bit3 h.bit4)
  refine ⟨h.inFrame.tick c, by rw [Ppu.tick_mask]; exact h.bit3, by rw [Ppu.tick_mask]; exact h.bit4, ?_⟩
  rw [hposition, h.position]
  omega

/-- The raster `j` ticks on from position `start`, with at most one dot skipped. After a skip it stands in an even frame, where no
dot is skipped, fewer dots from the top than ticks were made. -/
structure Ppu.Along (start j : Nat) (p : Ppu) : Prop where
  inFrame : p.InFrame
  position : ∃ skipped, skipped ≤ 1 ∧ p.position = (start + j + skipped) % 89342 ∧
    (skipped = 1 → p.oddFrame = false ∧ p.position < j)

theorem Ppu.Along.sameRaster {start j : Nat} {p q : Ppu} (hsame : p.SameRaster q) (h : p.Along start j) : q.Along start j := by
  refine ⟨h.inFrame.sameRaster hsame, ?_⟩
  rw [hsame.position, hsame.oddFrame]
  exact h.position

/-- Within a frame's time the second skip would need an odd frame, and the frame after a skip is even to its end. -/
theorem Ppu.Along.tick {start j : Nat} (hj : j < 89340) (c : Cart) {p : Ppu} (h : p.Along start j) :
    (p.tick c).Along start (j + 1) := by
  refine ⟨h.inFrame.tick c, ?_⟩
  obtain ⟨skipped, hskipped, hposition, hafter⟩ := h.position
  cases hskip : p.skipsDot with
  | false =>
    obtain ⟨hstep, hparity⟩ := Ppu.tick_step c h.inFrame hskip
    refine ⟨skipped, hskipped, by omega, fun hone => ?_⟩
    obtain ⟨heven, hbelow⟩ := hafter hone
    exact ⟨(hparity (by omega)).trans heven, by omega⟩
  | true =>
    obtain ⟨hlast, hodd, htop, heven⟩ := Ppu.tick_skip c hskip
    have hfirst : skipped ≠ 1 := fun hone => by
      have hcontra := (hafter hone).1
      rw [hodd] at hcontra
      cases hcontra
    exact ⟨1, le_rfl, by omega, fun _ => ⟨heven, by omega⟩⟩

end Sys2Proof.Machine

namespace Sys2Proof

open Sys2Proof.Machine

/-- Settles O59: the loop is a fold of device cycles, and each clause an induction on their number. -/
theorem stepTicksThreeDotsACycle : Obligations.StepTicksThreeDotsACycle := by
  intro s result n t u
  have hu : u = deviceCycles n 0 s := by
    rw [deviceCycles_eq_foldl, ← List.range_eq_range']
    rfl
  have htotal : u.ctl.cyclesTotal = s.ctl.cyclesTotal := by
    rw [hu, (DevicesOnly.deviceCycles n 0 s).ctl]
  have ht : t = { u with ctl := { u.ctl with cyclesTotal := s.ctl.cyclesTotal + n, lastResult := result n } } := by
    rw [← htotal, hu]
    rfl
  have happu : t.apu = u.apu := by rw [ht]
  have hppu : t.ppu = u.ppu := by rw [ht]
  obtain ⟨hregs, hram, hcart, hinputs, -⟩ := finishStep_frame result s
  obtain ⟨hodd, htime⟩ : u.apu.odd = _ ∧ u.apu.sampleTime = _ := foldl_deviceTicks_clocks s.ctl.cyclesTotal n s
  have hraster {Q : Nat → Ppu → Prop} (hsame : ∀ j p q, p.SameRaster q → Q j p → Q j q)
      (htick : ∀ j c p, j < 3 * n → Q j p → Q (j + 1) (p.tick c)) (h : Q 0 s.ppu) : Q (3 * n) u.ppu :=
    foldl_deviceTicks_raster hsame htick s.ctl.cyclesTotal h n le_rfl
  refine ⟨ht, hregs, hram, hcart, hinputs, by rw [happu]; exact hodd, ?_, fun hrange => ⟨fun h3 h4 => ?_, fun hn => ?_⟩⟩
  · rw [happu]
    simp only [Apu.sampleTime] at htime
    linarith
  · have hin : s.ppu.InFrame := ⟨hrange.scanline, hrange.dot⟩
    have hstart : s.ppu.Dark s.ppu.position 0 := ⟨hin, h3, h4, (Nat.mod_eq_of_lt hin.position_lt).symm⟩
    rw [hppu]
    exact (hraster (Q := Ppu.Dark s.ppu.position) (fun _ _ _ => Ppu.Dark.sameRaster) (fun _ c _ _ => Ppu.Dark.tick c)
      hstart).position
  · have hin : s.ppu.InFrame := ⟨hrange.scanline, hrange.dot⟩
    have hstart : s.ppu.Along s.ppu.position 0 :=
      ⟨hin, 0, Nat.zero_le 1, (Nat.mod_eq_of_lt hin.position_lt).symm, nofun⟩
    obtain ⟨skipped, hskipped, hposition, -⟩ :=
      (hraster (Q := Ppu.Along s.ppu.position) (fun _ _ _ => Ppu.Along.sameRaster)
        (fun _ c _ hj => Ppu.Along.tick (by omega) c) hstart).position
    exact ⟨skipped, hskipped, by rw [hppu]; exact hposition⟩

end Sys2Proof
end

section
/-! The end of a run (70_reset_and_hazards.md R1050): what tells a normal end, a wait and a fault apart, and the step from a normal
end, which is that jump to itself. -/

namespace Sys2Proof.Machine

/-! ### The status of a run -/

theorem State.atSelfJump_iff (s : State) :
    s.atSelfJump = true ↔ s.peek s.regs.pc = 0x4C ∧ s.peekWord (s.regs.pc + 1) = s.regs.pc := by
  have hsucc : s.regs.pc + 1 + 1 = s.regs.pc + 2 := BitVec.add_assoc s.regs.pc 1 1
  have hword : s.peekWord (s.regs.pc + 1) = s.regs.pc ↔
      s.peek (s.regs.pc + 1) = loByte s.regs.pc ∧ s.peek (s.regs.pc + 2) = hiByte s.regs.pc := by
    rw [State.peekWord, hsucc]
    constructor
    · intro h
      exact ⟨(loByte_wordOf _ _).symm.trans (congrArg loByte h), (hiByte_wordOf _ _).symm.trans (congrArg hiByte h)⟩
    · rintro ⟨hlo, hhi⟩
      rw [hlo, hhi, wordOf_hi_lo]
  rw [hword]
  simp only [State.atSelfJump, Bool.and_eq_true, beq_iff_eq, and_assoc]

theorem State.interruptsOff_iff (s : State) :
    s.interruptsOff = true ↔ s.ctl.nmiPending = false ∧ s.ppu.ctrl.getLsbD 7 = false ∧ s.regs.p.i = true := by
  simp only [State.interruptsOff, bitAt, Bool.and_eq_true, Bool.not_eq_true', and_assoc]

theorem normalEnd_iff (s : State) :
    NormalEnd s ↔ s.ctl.fault = none ∧ s.atSelfJump = true ∧ s.interruptsOff = true := by
  unfold NormalEnd State.runStatus
  cases s.ctl.fault with
  | some f => simp
  | none => cases s.atSelfJump <;> cases s.interruptsOff <;> decide

theorem waiting_iff (s : State) :
    Waiting s ↔ s.ctl.fault = none ∧ s.atSelfJump = true ∧ ¬ s.interruptsOff = true := by
  unfold Waiting State.runStatus
  cases s.ctl.fault with
  | some f => simp
  | none => cases s.atSelfJump <;> cases s.interruptsOff <;> decide

/-! ### The tick loop latches no NMI while the enable is off -/

/-- No NMI is pending and PPUCTRL's NMI enable is off. -/
structure State.NmiOff (s : State) : Prop where
  pending : s.ctl.nmiPending = false
  enable : s.ppu.ctrl.getLsbD 7 = false

theorem State.NmiOff.ppuTick {s : State} (h : s.NmiOff) : (Machine.ppuTick s).NmiOff := by
  have hctrl : (Machine.ppuTick s).ppu.ctrl = s.ppu.ctrl := (DevicesOnly.ppuTick s).ctrl
  have hout : (s.ppu.tick s.cart).nmiOut = false := by
    rw [Ppu.nmiOut, Ppu.tick_ctrl, bitAt, h.enable, Bool.and_false]
  refine ⟨?_, by rw [hctrl]; exact h.enable⟩
  rw [Machine.ppuTick, State.setPpu_ctl, hout, h.pending, Bool.and_false, Bool.or_false]

theorem State.NmiOff.apuTick {s : State} (h : s.NmiOff) (cycle : Nat) : (Machine.apuTick cycle s).NmiOff := by
  obtain ⟨hframe, -, hpending⟩ := apuTick_frame cycle s
  exact ⟨hpending.trans h.pending, by rw [hframe.ctrl]; exact h.enable⟩

theorem State.NmiOff.deviceCycles {s : State} (h : s.NmiOff) (left k : Nat) : (Machine.deviceCycles left k s).NmiOff := by
  induction left generalizing k s with
  | zero => exact h
  | succ n ih => exact ih (h.ppuTick.ppuTick.ppuTick.apuTick _) (k + 1)

theorem State.NmiOff.finishStep {s : State} (h : s.NmiOff) (result : Nat → StepResult) :
    (Machine.finishStep result s).NmiOff := by
  obtain ⟨hpending, henable⟩ := h.deviceCycles s.ctl.stepCycles 0
  exact ⟨hpending, henable⟩

/-! ### The step from a self jump in storage -/

/-- The self jump as a step from storage: a CPU part that changes nothing a run depends on, then the tick loop. -/
theorem step_selfJump {s : State} (hpoll : s.poll = .instruction) (hstorage : StorageFrom 3 s.regs.pc)
    (hjump : s.atSelfJump = true) :
    ∃ u, step s = .next (finishStep .instruction u) ∧ u.regs = s.regs ∧ u.ram = s.ram ∧ u.cart = s.cart ∧
      u.ppu = s.ppu ∧ u.ctl.fault = s.ctl.fault ∧ u.ctl.nmiPending = s.ctl.nmiPending ∧ u.ctl.stepCycles = 3 + s.ctl.stallCycles := by
  obtain ⟨hop, hword⟩ := s.atSelfJump_iff.mp hjump
  have hsucc : s.regs.pc + 1 + 1 = s.regs.pc + 2 := BitVec.add_assoc s.regs.pc 1 1
  have hbytes : (fetchSeq 3 s.startStep).1 = [0x4C, s.peek (s.regs.pc + 1), s.peek (s.regs.pc + 2)] := by
    rw [fetchSeq_bytes (s := s.startStep) hstorage]
    simp only [State.startStep_peek, State.startStep_regs]
    show [s.peek (s.regs.pc + 0), s.peek (s.regs.pc + 1), s.peek (s.regs.pc + 2)] = _
    rw [show s.regs.pc + 0 = s.regs.pc from BitVec.add_zero s.regs.pc, hop]
  have hdecode : decode (fetchSeq 3 s.startStep).1 = .ok (.jmpAbs s.regs.pc, []) := by
    have hpc : wordOf (s.peek (s.regs.pc + 2)) (s.peek (s.regs.pc + 1)) = s.regs.pc := by
      rw [← hsucc]; exact hword
    rw [hbytes, decode_f3 (b := 0x4C) (mk := .jmpAbs) rfl, hpc]
  have hfetch := fetchInstr_of_decode hdecode
  have hv := fetchSeq_storage (s := s.startStep) hstorage
  generalize (fetchSeq 3 s.startStep).2 = v at hfetch hv
  have hctl : v.ctl = s.startStep.ctl := by rw [hv]
  have hram : v.ram = s.ram := by rw [hv]; rfl
  have hcart : v.cart = s.cart := by rw [hv]; rfl
  have hppu : v.ppu = s.ppu := by rw [hv]; rfl
  have hregs : { v.regs with pc := s.regs.pc } = s.regs := by rw [hv]; rfl
  have hexec : exec (.jmpAbs s.regs.pc) v.payStall = .next ((v.payStall.begin 3).setPc s.regs.pc) := rfl
  refine ⟨_, (step_of_poll_instruction hpoll).trans (instructionStep_of_fetched hfetch hexec), hregs, hram, hcart, hppu,
    ?_, ?_, ?_⟩
  all_goals rw [State.setPc_ctl, State.begin_ctl, State.payStall_ctl, hctl]
  · rfl
  · rfl
  · show 0 + s.ctl.stallCycles + 3 = 3 + s.ctl.stallCycles
    omega

/-- Three storage addresses in a row. -/
theorem storageFrom_three {a : Word} (h0 : isStorage a = true) (h1 : isStorage (a + 1) = true)
    (h2 : isStorage (a + 2) = true) : StorageFrom 3 a := by
  intro j hj
  have hcases : j = 0 ∨ j = 1 ∨ j = 2 := by omega
  rcases hcases with rfl | rfl | rfl
  · rw [show a + BitVec.ofNat 16 0 = a from BitVec.add_zero a]; exact h0
  · exact h1
  · exact h2

/-- A self jump in storage stays one while PC, RAM and the cartridge stay. -/
theorem State.atSelfJump_congr {s t : State} (hregs : t.regs = s.regs) (hram : t.ram = s.ram) (hcart : t.cart = s.cart)
    (h0 : isStorage s.regs.pc = true) (h1 : isStorage (s.regs.pc + 1) = true) (h2 : isStorage (s.regs.pc + 2) = true) :
    t.atSelfJump = s.atSelfJump := by
  simp only [State.atSelfJump, hregs, State.peek_congr hram hcart h0, State.peek_congr hram hcart h1,
    State.peek_congr hram hcart h2]

end Sys2Proof.Machine

namespace Sys2Proof

open Sys2Proof.Machine

/-- Settles O60: the status by its three conditions; the step from a normal end is the jump, and the tick loop keeps all three. -/
theorem normalEndStays : Obligations.NormalEndStays := by
  intro s pc selfJump off
  have hjump : s.atSelfJump = true ↔ selfJump := s.atSelfJump_iff
  have hoff : s.interruptsOff = true ↔ off := s.interruptsOff_iff
  refine ⟨?_, ?_, fun f hf => ⟨fun h => ?_, fun h => ?_, step_of_fault hf⟩, fun hend h0 h1 h2 => ?_, fun hwait hnmi => ?_,
    fun hwait hnmi hirq hmask => ?_⟩
  · rw [normalEnd_iff, hjump, hoff]
  · rw [waiting_iff, hjump, hoff]
  · rw [((normalEnd_iff s).mp h).1] at hf
    cases hf
  · rw [((waiting_iff s).mp h).1] at hf
    cases hf
  · obtain ⟨hfault, hself, hquiet⟩ := (normalEnd_iff s).mp hend
    obtain ⟨hpending, henable, hmasked⟩ := s.interruptsOff_iff.mp hquiet
    obtain ⟨u, hstep, huregs, huram, hucart, huppu, hufault, hupending, hucycles⟩ :=
      step_selfJump (State.poll_instruction hfault hpending (.inr hmasked)) (storageFrom_three h0 h1 h2) hself
    obtain ⟨hregs, hram, hcart, -, hctl, -⟩ := finishStep_frame .instruction u
    have hnmi : u.NmiOff := ⟨hupending.trans hpending, by rw [huppu]; exact henable⟩
    obtain ⟨hpending', henable'⟩ := hnmi.finishStep .instruction
    have hstay := State.atSelfJump_congr (hregs.trans huregs) (hram.trans huram) (hcart.trans hucart) h0 h1 h2
    refine ⟨_, hstep,
      (normalEnd_iff _).mpr ⟨?_, hstay.trans hself, (State.interruptsOff_iff _).mpr ⟨hpending', henable', ?_⟩⟩, hregs.trans huregs, hram.trans huram, hcart.trans hucart, ?_⟩
    · rw [hctl]
      exact hufault.trans hfault
    · rw [hregs, huregs]
      exact hmasked
    · rw [hctl, ← hucycles]
  · exact step_of_poll_nmi (State.poll_nmi ((waiting_iff s).mp hwait).1 hnmi)
  · exact step_of_poll_irq (State.poll_irq ((waiting_iff s).mp hwait).1 hnmi hirq hmask)

end Sys2Proof
end
